-- ==== Sys2Proof/Word.lean ====
section
/-! DEFINITION. The word types of the register space (20_memory.md R61, R67). -/

namespace Sys2Proof

/-- A register, and a command word: 32 bits, bit 0 least significant (R61, R67, R80). -/
abbrev Word := BitVec 32

/-- A 64-bit register pair: RESULT, SCALE and SCALE_STG (R26, R28, R30). -/
abbrev DWord := BitVec 64

end Sys2Proof
end

