-- ==== Sys2Proof/Config.lean ====
section
/-! DEFINITION. What one implementation fixes (00_scope.md R6, 20_memory.md R68) and the free line levels (R9, R113). -/

namespace Sys2Proof

/-- The implementation parameters of R6, and BASE of R68. A parameter set outside R6's legal values, the pulse-width
limit of 70_reset_and_hazards.md R236 among them, cannot be built: R236 asks a model to reject it, and says that it
is no run-time check. (Log entry 3.) -/
structure Config where
  /-- CYC_PER_US: `clk` cycles per microsecond. -/
  cycPerUs : Nat
  /-- T_HIGH_CYC: cycles SCK is high in a pulse. -/
  tHigh : Nat
  /-- T_LOW_CYC: cycles SCK is low after a pulse. -/
  tLow : Nat
  /-- HAS_LINE_ERR: whether the `line_err` input exists. -/
  hasLineErr : Bool
  /-- BASE: where the register space sits in the host's address map; the block itself never reads it (R68). -/
  base : Nat
  legal : 1 ≤ cycPerUs ∧ 1 ≤ tHigh ∧ tHigh < 60 * cycPerUs ∧ 1 ≤ tLow
  deriving DecidableEq, Repr

/-- A parameter set, or `none` where R6 and R236 reject it. -/
def Config.ofParams (cycPerUs tHigh tLow : Nat) (hasLineErr : Bool) (base : Nat) : Option Config :=
  if h : 1 ≤ cycPerUs ∧ 1 ≤ tHigh ∧ tHigh < 60 * cycPerUs ∧ 1 ≤ tLow then
    some { cycPerUs, tHigh, tLow, hasLineErr, base, legal := h }
  else none

/-- The defaults of R6 for CYC_PER_US = 1, the value the test vectors use (DESIGN CHOICE, unsafe, log entry 3: R6 leaves
CYC_PER_US open). -/
def Config.standard : Config :=
  { cycPerUs := 1, tHigh := 1, tLow := 1, hasLineErr := false, base := 0, legal := by decide }

/-- FREE VALUE: the DOUT level of a cycle that no listed input covers (R9: DOUT is under no law). Log entry 2. -/
opaque Config.freeDout : Nat → Bool

/-- FREE VALUE: the `line_err` level of a cycle that no listed input covers (R113, 92 D12). Log entry 2. -/
opaque Config.freeLineErr : Nat → Bool

end Sys2Proof
end

