-- ==== Sys2Proof/Syntax.lean ====
section
/-! DEFINITION. The commands of the opcode table (30_encoding.md R84), the registers (10_state.md R22 to R33) and a
host access (20_memory.md R62). -/

namespace Sys2Proof

/-- The sixteen values of a command's OP field, bits 3:0 (R80, R84). -/
inductive Opcode where
  | nop | configure | readRaw | readRawAvg | read | readAvg | tare | powerUp | powerDown | setScale | abort
  | reservedB | reservedC | reservedD | reservedE | reservedF
  deriving DecidableEq, Repr

/-- CONFIG.RMODE, the readiness strategy (R24, R82). -/
inductive ReadyMode where
  | polling | debounced
  deriving DecidableEq, Repr

/-- One constructor per row of spec/opcode_table.json. Gain codes and counts are numbers, whose range `WellFormed` checks;
a gain code of 3 and a count of 0 are legal encodings of invalid values (R82, R83). -/
inductive Instr where
  | nop
  | configure (gain : Nat) (ready : ReadyMode) (wrap : Bool)
  | readRaw
  | readRawAvg (times : Nat)
  | read
  | readAvg (times : Nat)
  | tare (times : Nat)
  | powerUp
  | powerDown
  | setScale
  | abort
  /-- A word with OP = 0xB; `rest` is its bits 31:4, which no rule reads (R85). -/
  | reservedB (rest : BitVec 28)
  | reservedC (rest : BitVec 28)
  | reservedD (rest : BitVec 28)
  | reservedE (rest : BitVec 28)
  | reservedF (rest : BitVec 28)
  deriving DecidableEq, Repr

/-- The registers of the map, each under its own name (R22 to R33). -/
inductive Reg where
  | cmd | status | config | resultInt | resultLo | resultHi | offset | scaleLo | scaleHi | sample
  | scaleStgLo | scaleStgHi | timeoutUs | guardUs | settleUs | pdholdUs
  deriving DecidableEq, Repr

/-- What the host does in one cycle: at most one full-word access at an 8-bit offset (R5, R61, R62). -/
inductive HostAccess where
  | idle
  | read (off : BitVec 8)
  | write (off : BitVec 8) (v : Word)
  deriving DecidableEq, Repr

/-- The four inputs of one step (R5). -/
structure CycleInput where
  access : HostAccess
  /-- The level of DOUT. -/
  dout : Bool
  /-- The level of `line_err`; it reads 0 where HAS_LINE_ERR = 0 (R6). -/
  lineErr : Bool
  /-- The synchronous reset input, active high (R230). -/
  rst : Bool
  deriving DecidableEq, Repr

end Sys2Proof
end

