-- ==== Sys2Proof/WellFormed.lean ====
section
/-! DEFINITION. The terms of `Instr` that an encoding exists for (30_encoding.md R80, R82, R83). -/

namespace Sys2Proof

/-- The operand fits its field: G is two bits (R82), TIMES is sixteen bits (R83). Every value that fits is a legal encoding,
G = 3 and TIMES = 0 among them. -/
def Instr.wellFormed : Instr → Bool
  | .nop => true
  | .configure gain _ _ => decide (gain < 2 ^ 2)
  | .readRaw => true
  | .readRawAvg times => decide (times < 2 ^ 16)
  | .read => true
  | .readAvg times => decide (times < 2 ^ 16)
  | .tare times => decide (times < 2 ^ 16)
  | .powerUp => true
  | .powerDown => true
  | .setScale => true
  | .abort => true
  | .reservedB _ => true
  | .reservedC _ => true
  | .reservedD _ => true
  | .reservedE _ => true
  | .reservedF _ => true

/-- `Instr.wellFormed` as a proposition. -/
abbrev Instr.WellFormed (i : Instr) : Prop := i.wellFormed = true

end Sys2Proof
end

