-- ==== Sys2Proof/Decode.lean ====
section
/-! DEFINITION. Decoding and encoding of command words (30_encoding.md R80 to R86). -/

namespace Sys2Proof

/-- Why a word is no command: a 1 outside the fields of its opcode (R85). -/
inductive DecodeError where
  | strayBits (op : Opcode)
  deriving DecidableEq, Repr

/-- The OP field of each opcode (R84). -/
def Opcode.code : Opcode → BitVec 4
  | .nop => 0x0
  | .configure => 0x1
  | .readRaw => 0x2
  | .readRawAvg => 0x3
  | .read => 0x4
  | .readAvg => 0x5
  | .tare => 0x6
  | .powerUp => 0x7
  | .powerDown => 0x8
  | .setScale => 0x9
  | .abort => 0xA
  | .reservedB => 0xB
  | .reservedC => 0xC
  | .reservedD => 0xD
  | .reservedE => 0xE
  | .reservedF => 0xF

/-- The opcode an OP field selects (R81, R84): the table has a row for each of the sixteen values. -/
def Opcode.ofCode (c : BitVec 4) : Opcode :=
  match c.getLsbD 3, c.getLsbD 2, c.getLsbD 1, c.getLsbD 0 with
  | false, false, false, false => .nop
  | false, false, false, true => .configure
  | false, false, true, false => .readRaw
  | false, false, true, true => .readRawAvg
  | false, true, false, false => .read
  | false, true, false, true => .readAvg
  | false, true, true, false => .tare
  | false, true, true, true => .powerUp
  | true, false, false, false => .powerDown
  | true, false, false, true => .setScale
  | true, false, true, false => .abort
  | true, false, true, true => .reservedB
  | true, true, false, false => .reservedC
  | true, true, false, true => .reservedD
  | true, true, true, false => .reservedE
  | true, true, true, true => .reservedF

/-- The `mask` column of R84. -/
def Opcode.mask : Opcode → Word
  | .nop => 0xFFFFFFFF
  | .configure => 0xFFFFFF0F
  | .readRaw => 0xFFFFFFFF
  | .readRawAvg => 0x0000FFFF
  | .read => 0xFFFFFFFF
  | .readAvg => 0x0000FFFF
  | .tare => 0x0000FFFF
  | .powerUp => 0xFFFFFFFF
  | .powerDown => 0xFFFFFFFF
  | .setScale => 0xFFFFFFFF
  | .abort => 0xFFFFFFFF
  | .reservedB => 0x0000000F
  | .reservedC => 0x0000000F
  | .reservedD => 0x0000000F
  | .reservedE => 0x0000000F
  | .reservedF => 0x0000000F

/-- The `match` column of R84. -/
def Opcode.pattern : Opcode → Word
  | .nop => 0x00000000
  | .configure => 0x00000001
  | .readRaw => 0x00000002
  | .readRawAvg => 0x00000003
  | .read => 0x00000004
  | .readAvg => 0x00000005
  | .tare => 0x00000006
  | .powerUp => 0x00000007
  | .powerDown => 0x00000008
  | .setScale => 0x00000009
  | .abort => 0x0000000A
  | .reservedB => 0x0000000B
  | .reservedC => 0x0000000C
  | .reservedD => 0x0000000D
  | .reservedE => 0x0000000E
  | .reservedF => 0x0000000F

/-- OP = `word[3:0]` (R80). -/
def opField (w : Word) : Opcode := Opcode.ofCode (w.extractLsb' 0 4)

/-- G = `word[5:4]` (R80, R82). -/
def gainField (w : Word) : Nat := (w.extractLsb' 4 2).toNat

/-- R = `word[6]`: 0 polling, 1 debounced polling (R80, R82). -/
def readyField (w : Word) : ReadyMode := if w.getLsbD 6 then .debounced else .polling

/-- P = `word[7]` (R80, R82). -/
def wrapField (w : Word) : Bool := w.getLsbD 7

/-- TIMES = `word[31:16]`, zero-extended (R80, R83). -/
def timesField (w : Word) : Nat := (w.extractLsb' 16 16).toNat

/-- The bits of a reserved word that no rule reads. -/
def restField (w : Word) : BitVec 28 := w.extractLsb' 4 28

/-- The command of an opcode with the operands its fields hold in a word (R82, R83). -/
def commandOf (op : Opcode) (w : Word) : Instr :=
  match op with
  | .nop => .nop
  | .configure => .configure (gainField w) (readyField w) (wrapField w)
  | .readRaw => .readRaw
  | .readRawAvg => .readRawAvg (timesField w)
  | .read => .read
  | .readAvg => .readAvg (timesField w)
  | .tare => .tare (timesField w)
  | .powerUp => .powerUp
  | .powerDown => .powerDown
  | .setScale => .setScale
  | .abort => .abort
  | .reservedB => .reservedB (restField w)
  | .reservedC => .reservedC (restField w)
  | .reservedD => .reservedD (restField w)
  | .reservedE => .reservedE (restField w)
  | .reservedF => .reservedF (restField w)

/-- The command a word encodes: OP first, then the bits outside the opcode's fields (R81, R85). Field values are checked
at acceptance, not here. -/
def decode (w : Word) : Except DecodeError Instr :=
  if w &&& (opField w).mask = (opField w).pattern then .ok (commandOf (opField w) w)
  else .error (.strayBits (opField w))

/-- The opcode of a command (R84). -/
def Instr.opcode : Instr → Opcode
  | .nop => .nop
  | .configure _ _ _ => .configure
  | .readRaw => .readRaw
  | .readRawAvg _ => .readRawAvg
  | .read => .read
  | .readAvg _ => .readAvg
  | .tare _ => .tare
  | .powerUp => .powerUp
  | .powerDown => .powerDown
  | .setScale => .setScale
  | .abort => .abort
  | .reservedB _ => .reservedB
  | .reservedC _ => .reservedC
  | .reservedD _ => .reservedD
  | .reservedE _ => .reservedE
  | .reservedF _ => .reservedF

/-- A count beside its opcode: `n << 16 | OP` (R141, R143, R170). -/
def encodeTimes (op : Opcode) (times : Nat) : Word := BitVec.ofNat 16 times ++ (0#12 ++ op.code)

/-- R82's bit for a readiness strategy. -/
def readyBit : ReadyMode → Bool
  | .polling => false
  | .debounced => true

/-- The word of a command, from the layout of R80 and the `Encoding` lines of R140 to R143, R170, R171 and R180 to R185. -/
def encode : Instr → Word
  | .nop => 0x00000000
  | .configure gain ready wrap =>
    0#24 ++ (BitVec.ofBool wrap ++ (BitVec.ofBool (readyBit ready) ++ (BitVec.ofNat 2 gain ++ 1#4)))
  | .readRaw => 0x00000002
  | .readRawAvg times => encodeTimes .readRawAvg times
  | .read => 0x00000004
  | .readAvg times => encodeTimes .readAvg times
  | .tare times => encodeTimes .tare times
  | .powerUp => 0x00000007
  | .powerDown => 0x00000008
  | .setScale => 0x00000009
  | .abort => 0x0000000A
  | .reservedB rest => rest ++ 0xB#4
  | .reservedC rest => rest ++ 0xC#4
  | .reservedD rest => rest ++ 0xD#4
  | .reservedE rest => rest ++ 0xE#4
  | .reservedF rest => rest ++ 0xF#4

/-- A row of the opcode table as one command word: `nbits` of it are given, the others are 0. -/
def tableWord (nbits w : Nat) : Word := BitVec.ofNat 32 (w % 2 ^ nbits)

/-- What the decoder reads from a table row's word. A command is one 32-bit word, so there is no byte order to choose. -/
def decodeTableWord (nbits w : Nat) : Option Instr :=
  match decode (tableWord nbits w) with
  | .ok i => some i
  | .error _ => none

end Sys2Proof
end

