-- ==== Sys2Proof/Machine/State.lean ====
section
/-! DEFINITION. The block's state (10_state.md R20 to R43) and its value after reset (R43). -/

namespace Sys2Proof.Machine

/-- CONFIG.GAIN, the gain setting (R24). Code 3 is never stored, so it has no name here (log entry 9). -/
inductive Gain where
  | g128 | g64 | g32
  deriving DecidableEq, Repr

/-- STATUS.ERR, the error codes of 60_exceptions.md R202. Codes 7 to 15 are never produced (log entry 9). -/
inductive ErrCode where
  | none | config | timeout | invalidArg | lineFault | illegal | poweredDown
  deriving DecidableEq, Repr

/-- STATUS.PHASE, the controller's sequencing state (R41). Codes 10 to 15 are never reached (log entry 9). -/
inductive Phase where
  | idle | pdHold | puSettle | wrapHi | wrapLo | waitRdy | clkHi | clkLo | recoverHi | recoverLo
  deriving DecidableEq, Repr

/-- The block's state. The first group is the parameter set of R6, the next two are R22 to R33 and R40, the last is the
model's own: the inputs still to come, a cycle count for the free line levels, and the read data of the last cycle. -/
structure State where
  /-- The parameters of R6; no step changes them. -/
  cfg : Config
  /-- CONFIG.GAIN (R24). -/
  gain : Gain
  /-- CONFIG.RMODE (R24). -/
  rmode : ReadyMode
  /-- CONFIG.PWRAP (R24). -/
  pwrap : Bool
  /-- STATUS.DONE (R23). -/
  done : Bool
  /-- STATUS.REJ (R23). -/
  rej : Bool
  /-- STATUS.ABT (R23). -/
  abt : Bool
  /-- STATUS.ERR (R23, R202). -/
  err : ErrCode
  /-- RESULT_INT, signed (R25). -/
  resultInt : Word
  /-- RESULT_HI ++ RESULT_LO, binary64 (R26). -/
  result : DWord
  /-- OFFSET, signed (R27). -/
  offset : Word
  /-- SCALE_HI ++ SCALE_LO, binary64 (R28). -/
  scale : DWord
  /-- SAMPLE, signed (R29). -/
  sample : Word
  /-- SCALE_STG_HI ++ SCALE_STG_LO (R30). -/
  scaleStg : DWord
  /-- TIMEOUT_US (R31). -/
  timeoutUs : Word
  /-- GUARD_US (R32). -/
  guardUs : Word
  /-- SETTLE_US (R33). -/
  settleUs : Word
  /-- PDHOLD_US (R33). -/
  pdholdUs : Word
  /-- The sequencing state (R40, R41). -/
  phase : Phase
  /-- The opcode of the command in progress (R40). -/
  op : Opcode
  /-- Conversions the command in progress needs (R40). -/
  times : BitVec 16
  /-- Conversions of the command in progress completed so far (R40). -/
  nconv : BitVec 16
  /-- N of the command in progress (R40). -/
  npulse : BitVec 2
  /-- The index of the current pulse (R40). -/
  bitI : BitVec 5
  /-- The sample shift register (R40). -/
  shreg : BitVec 24
  /-- The sum of the samples of the command in progress, signed (R40). -/
  acc : BitVec 48
  /-- The cycle counter of the current timed phase (R40). -/
  cnt : BitVec 64
  /-- The cycle counter of the readiness wait (R40). -/
  wcnt : BitVec 64
  /-- Cycles since the last completed conversion, saturating (R40, R114). -/
  sinceLast : BitVec 64
  /-- Whether a conversion has completed since reset (R40). -/
  hasPrev : Bool
  /-- STATUS.PWR: whether the chip was last powered up (R23, R40). -/
  pwr : Bool
  /-- STATUS.NSEL: the selection last sent, 0 for none (R42). -/
  nsel : BitVec 2
  /-- The level driven on SCK in the current cycle (R40, R115). -/
  sck : Bool
  /-- MODEL'S OWN: the inputs of this cycle and the following ones (R5). Log entry 1. -/
  inputs : List CycleInput
  /-- MODEL'S OWN: the cycle number the free line levels are applied to. Log entry 2. -/
  cycle : Nat
  /-- MODEL'S OWN: the read data the last cycle yielded, if it held a read (R5, R63). Log entry 6. -/
  rdata : Option Word
  deriving DecidableEq, Repr

/-- Why a step stops. No rule of the spec stops the block; each of these stands for a state that no run reaches, in
which the rules give no value. All are safe: the model stops where the block's behaviour is not stated (log entry 7). -/
inductive Fault where
  /-- Raised by `finish` (R109) when `op` is not one of the five conversion opcodes, which alone have a result rule. Safe. -/
  | noResultRule
  /-- Raised by the averaging result rules (R141, R143, R170) when `times` is 0, where S / n has no value. Safe. -/
  | meanOfNothing
  /-- Raised by the calibrated result rules (R142, R143) when SCALE is not finite and nonzero, where the quotient by val(SCALE)
  has no value. Safe. -/
  | scaleNotDivisor
  deriving DecidableEq, Repr

/-- Why an instruction has no meaning. -/
inductive Refusal where
  /-- Raised by `exec` for an instruction the model gives no meaning yet; no instruction is left in this case. Safe. -/
  | notModelled (mnemonic : String)
  deriving DecidableEq, Repr

/-- The state right after reset (R43). The parameters and the model's own fields are DESIGN CHOICE (log entries 1, 2, 3, 6). -/
def State.reset : State where
  cfg := Config.standard
  gain := .g128
  rmode := .polling
  pwrap := false
  done := false
  rej := false
  abt := false
  err := .none
  resultInt := 0
  result := 0x0000000000000000
  offset := 0
  scale := 0x3FF0000000000000
  sample := 0
  scaleStg := 0x3FF0000000000000
  timeoutUs := 1000000
  guardUs := 10000
  settleUs := 1000
  pdholdUs := 100
  phase := .idle
  op := .nop
  times := 0
  nconv := 0
  npulse := 0
  bitI := 0
  shreg := 0
  acc := 0
  cnt := 0
  wcnt := 0
  sinceLast := 0
  hasPrev := false
  pwr := true
  nsel := 0
  sck := false
  inputs := []
  cycle := 0
  rdata := none

end Sys2Proof.Machine
end

