-- ==== Sys2Proof/Machine/Operands.lean ====
section
/-! DEFINITION. Offsets and registers (20_memory.md R61, R62), gain codes (10_state.md R24), gainBits
(40_line_protocol.md R112) and durations (R100). -/

namespace Sys2Proof.Machine

/-- The byte offset of a register (R22 to R33). -/
def regOffset : Reg → BitVec 8
  | .cmd => 0x00
  | .status => 0x04
  | .config => 0x08
  | .resultInt => 0x0C
  | .resultLo => 0x10
  | .resultHi => 0x14
  | .offset => 0x18
  | .scaleLo => 0x1C
  | .scaleHi => 0x20
  | .sample => 0x24
  | .scaleStgLo => 0x28
  | .scaleStgHi => 0x2C
  | .timeoutUs => 0x30
  | .guardUs => 0x34
  | .settleUs => 0x38
  | .pdholdUs => 0x3C

/-- The register an offset names: bits [1:0] are ignored (R62), and 0x40 to 0xFF are unmapped (R34). -/
def regAt (off : BitVec 8) : Option Reg :=
  match (off.extractLsb' 2 6).toNat with
  | 0 => some .cmd
  | 1 => some .status
  | 2 => some .config
  | 3 => some .resultInt
  | 4 => some .resultLo
  | 5 => some .resultHi
  | 6 => some .offset
  | 7 => some .scaleLo
  | 8 => some .scaleHi
  | 9 => some .sample
  | 10 => some .scaleStgLo
  | 11 => some .scaleStgHi
  | 12 => some .timeoutUs
  | 13 => some .guardUs
  | 14 => some .settleUs
  | 15 => some .pdholdUs
  | _ => none

/-- The code of a gain setting (R24). -/
def gainCode : Gain → BitVec 2
  | .g128 => 0
  | .g64 => 1
  | .g32 => 2

/-- The gain setting of a code; every other value is outside the legal ones (R24, R82). -/
def gainOfCode (g : Nat) : Option Gain :=
  match g with
  | 0 => some .g128
  | 1 => some .g64
  | 2 => some .g32
  | _ => none

/-- `gainBits(g)`: the number of selector pulses (R112). -/
def gainBits : Gain → BitVec 2
  | .g128 => 1
  | .g64 => 3
  | .g32 => 2

/-- `D(x)`: the duration of a timing register in cycles (R100). -/
def duration (c : Config) (x : Word) : Nat := max 1 (x.toNat * c.cycPerUs)

/-- The inputs of the current cycle. Past the end of the listed inputs the host is idle and `rst` is 0 (log entry 1), and the
two lines are free (log entry 2). -/
def State.currentInput (s : State) : CycleInput :=
  match s.inputs with
  | inp :: _ => inp
  | [] => { access := .idle, dout := Config.freeDout s.cycle, lineErr := Config.freeLineErr s.cycle, rst := false }

end Sys2Proof.Machine
end

