-- ==== Sys2Proof/Machine/Flags.lean ====
section
/-! DEFINITION. STATUS and CONFIG as the host reads them (10_state.md R23, R24, R41; 60_exceptions.md R202), and what sets
and clears the status flags (R200, R201, R203). -/

namespace Sys2Proof.Machine

/-- The code of an error (R202). -/
def errCode : ErrCode → BitVec 4
  | .none => 0
  | .config => 1
  | .timeout => 2
  | .invalidArg => 3
  | .lineFault => 4
  | .illegal => 5
  | .poweredDown => 6

/-- The code of a phase (R41). -/
def phaseCode : Phase → BitVec 4
  | .idle => 0
  | .pdHold => 1
  | .puSettle => 2
  | .wrapHi => 3
  | .wrapLo => 4
  | .waitRdy => 5
  | .clkHi => 6
  | .clkLo => 7
  | .recoverHi => 8
  | .recoverLo => 9

/-- The code of a readiness strategy (R24). -/
def rmodeBit : ReadyMode → Bool
  | .polling => false
  | .debounced => true

/-- STATUS.BUSY: 1 when `phase != IDLE` (R23). -/
def State.busy (s : State) : Bool := decide (s.phase ≠ .idle)

/-- STATUS.RDY, the readiness probe: DOUT low and no command in progress (R23, R186). -/
def State.rdy (s : State) (dout : Bool) : Bool := !dout && !s.busy

/-- STATUS as read in a cycle with the given DOUT level (R23). -/
def State.statusWord (s : State) (dout : Bool) : Word :=
  0#14 ++ (s.nsel ++ (phaseCode s.phase ++ (errCode s.err ++ (0#1 ++ (BitVec.ofBool s.abt ++ (BitVec.ofBool s.rej ++
    (BitVec.ofBool dout ++ (BitVec.ofBool s.pwr ++ (BitVec.ofBool (s.rdy dout) ++ (BitVec.ofBool s.done ++
      BitVec.ofBool s.busy))))))))))

/-- CONFIG as read (R24). -/
def State.configWord (s : State) : Word :=
  0#28 ++ (BitVec.ofBool s.pwrap ++ (BitVec.ofBool (rmodeBit s.rmode) ++ gainCode s.gain))

/-- A host write is discarded: REJ is set and nothing else changes (R201). -/
def State.discardWrite (s : State) : State := { s with rej := true }

/-- An accepted command clears REJ and ABT (R200). -/
def State.clearRejAbt (s : State) : State := { s with rej := false, abt := false }

/-- A command that goes on over later cycles clears all four flags when it is accepted (R145, R182, R183). -/
def State.clearStatus (s : State) : State := { s with done := false, err := .none, rej := false, abt := false }

end Sys2Proof.Machine
end

