-- ==== Sys2Proof/Machine/Numeric.lean ====
section
/-! DEFINITION. The numeric primitives: decode24 (40_line_protocol.md R110), RNE64, val, finite_nonzero and rnd_div
(42_calibration.md R160 to R162). -/

namespace Sys2Proof.Machine

/-- `decode24(f)`: the field read as two's complement, in R110's first form. -/
def decode24 (f : BitVec 24) : Int :=
  if 2 ^ 23 ≤ f.toNat then (f.toNat : Int) - 2 ^ 24 else (f.toNat : Int)

/-- `rnd_div(s, n)`: the integer nearest to s / n, ties to even (R162). For n > 0 Lean's `/` on Int is floor. -/
def rndDiv (s : Int) (n : Nat) : Int :=
  let q := s / n
  let r := s - q * n
  if 2 * r > n then q + 1
  else if 2 * r < n then q
  else q + q % 2

/-- The fraction bits of a binary64 word (R67). -/
def fracField (b : DWord) : Nat := (b.extractLsb' 0 52).toNat

/-- The biased exponent E of a binary64 word (R67). -/
def expField (b : DWord) : Nat := (b.extractLsb' 52 11).toNat

/-- The sign bit of a binary64 word (R67). -/
def signBit (b : DWord) : Bool := b.getLsbD 63

/-- `val(b)` for a word that encodes a finite value (R161). -/
def val (b : DWord) : Rat :=
  let sign : Rat := if signBit b then -1 else 1
  if expField b = 0 then sign * 2 ^ (-1074 : Int) * (fracField b : Rat)
  else sign * 2 ^ ((expField b : Int) - 1075) * (2 ^ 52 + (fracField b : Rat))

/-- The word encodes a finite value. -/
def finite (b : DWord) : Bool := decide (expField b ≠ 0x7FF)

/-- `finite_nonzero(b)` (R161). -/
def finiteNonzero (b : DWord) : Bool := finite b && decide (b.extractLsb' 0 63 ≠ 0)

/-- The overflow threshold of R160, 2^1024 - 2^970. -/
def overflowBound : Nat := 2 ^ 1024 - 2 ^ 970

/-- The low 63 bits of RNE64(n / d) for a magnitude n / d: infinity from the threshold up, else the magnitude in units of
2^-1074, rounded to 53 significant bits with ties to even. In those units a significand of 53 bits scaled by 2^sh is
encoded as sh * 2^52 plus the significand, subnormals (sh = 0) included. -/
def rneMagnitude (n d : Nat) : Nat :=
  if overflowBound * d ≤ n then 0x7FF * 2 ^ 52
  else
    let units := n * 2 ^ 1074
    let sh := Nat.log2 (units / d) - 52
    sh * 2 ^ 52 + (rndDiv (units : Int) (d * 2 ^ sh)).toNat

/-- `RNE64(q)` for an exact rational q (R160). A zero result is +0.0, also where a nonzero q rounds to zero
(DEDUCED from R160 and R142, log entry 8). -/
def rne64 (q : Rat) : DWord :=
  let m := rneMagnitude q.num.natAbs q.den
  if q < 0 ∧ m ≠ 0 then BitVec.ofNat 64 (2 ^ 63 + m) else BitVec.ofNat 64 m

end Sys2Proof.Machine
end

