-- ==== Sys2Proof/Machine/Ops.lean ====
section
/-! DEFINITION. The operations the commands and phases share: completion (60_exceptions.md R203, this block's counterpart of
taking an exception; R204 gives it no return), acceptance (R200, R145), the start and end of a conversion
(40_line_protocol.md R102, R111), recovery (R113) and reset (70_reset_and_hazards.md R230). -/

namespace Sys2Proof.Machine

/-- Run `f` on the state of a `next` outcome; a stop stays a stop. -/
def andThen (o : Host.Outcome State Fault Refusal) (f : State → Host.Outcome State Fault Refusal) :
    Host.Outcome State Fault Refusal :=
  match o with
  | .next s => f s
  | .fault r => .fault r
  | .refused r => .refused r

/-- `complete(err)`: the command in progress ends with an error code (R203). SCK, REJ and ABT are untouched. -/
def State.complete (s : State) (e : ErrCode) : State := { s with phase := .idle, done := true, err := e }

/-- A command written to CMD (R200, R201): while idle REJ and ABT are cleared and `act` decides the rest; while busy the write
is discarded. -/
def State.onCommand (s : State) (act : State → State) : State :=
  if s.phase = .idle then act s.clearRejAbt else s.discardWrite

/-- `begin_conv()`: the power-wrap prologue, or straight to the readiness wait (R102). -/
def State.beginConv (s : State) : State :=
  if s.pwrap then { s with sck := true, phase := .wrapHi, cnt := 0 }
  else { s with sck := false, phase := .waitRdy, wcnt := 0 }

/-- The power gate (R184, the last check of R200), then the acceptance of a conversion command (R145). -/
def State.acceptConversion (s : State) (op : Opcode) (times : BitVec 16) : State :=
  if s.pwr = false ∧ s.pwrap = false then s.complete .poweredDown
  else
    State.beginConv
      { s.clearStatus with op := op, times := times, nconv := 0, acc := 0, npulse := gainBits s.gain }

/-- Acceptance of a command with a TIMES operand: 0 is refused before the power gate (R200, R83, R205). -/
def State.acceptCounted (s : State) (op : Opcode) (times : BitVec 16) : State :=
  if times = 0 then s.complete .invalidArg else s.acceptConversion op times

/-- The start of a power sequence that holds SCK at `level` (R182, R183). -/
def State.startPower (s : State) (level : Bool) (p : Phase) : State :=
  { s.clearStatus with sck := level, phase := p, cnt := 0 }

/-- A word that is no command, or a reserved opcode: ERR_ILLEGAL while idle, discarded while busy (R85, R200, R201). -/
def State.illegalWord (s : State) : State := s.onCommand fun t => t.complete .illegal

/-- `line_err` as the block sees it: it reads 0 where the input does not exist (R6, R113). -/
def State.lineFault (s : State) (inp : CycleInput) : Bool := s.cfg.hasLineErr && inp.lineErr

/-- `enter_recovery()` (R113). -/
def State.enterRecovery (s : State) : State := { s with sck := true, phase := .recoverHi, cnt := 0 }

/-- `sample_bit(b)`: a data pulse shifts the level in at the low end, a selector pulse discards it (R106). -/
def State.sampleBit (s : State) (b : Bool) : State :=
  if s.bitI.toNat < 24 then { s with shreg := s.shreg.extractLsb' 0 23 ++ BitVec.ofBool b } else s

/-- `conv_bookkeeping()` (R111). `since_last` is written once an edge, by `tickSinceLast` (R114). -/
def State.convBookkeeping (s : State) : State :=
  { s with
    sample := BitVec.ofInt 32 (decode24 s.shreg)
    acc := BitVec.ofInt 48 (s.acc.toInt + decode24 s.shreg)
    nconv := s.nconv + 1
    hasPrev := true
    nsel := s.npulse }

/-- The guard of debounced polling (R103). -/
def State.guardOk (s : State) : Bool :=
  decide (s.rmode = .polling) || !s.hasPrev || decide (s.guardUs.toNat * s.cfg.cycPerUs ≤ s.sinceLast.toNat)

/-- The readiness condition of a WAIT_RDY cycle (R103). -/
def State.ready (s : State) (dout : Bool) : Bool := !dout && s.guardOk

/-- Whether a conversion's last low cycle ends at this edge (R107, R109). -/
def State.endsConversion (s : State) (inp : CycleInput) : Bool :=
  decide (s.phase = .clkLo) && !s.lineFault inp && decide (s.cnt.toNat + 1 = s.cfg.tLow) &&
    !decide (s.bitI.toNat < 23 + s.npulse.toNat)

/-- The update of `since_last` at an edge not under reset: 0 if a conversion ended, else one more, saturating (R114). -/
def State.tickSinceLast (s : State) (convEnded : Bool) : State :=
  { s with sinceLast := if convEnded then 0 else BitVec.ofNat 64 (min (s.sinceLast.toNat + 1) (2 ^ 64 - 1)) }

/-- An edge with `rst` = 1: every field of R43 takes its reset value (R230). The parameters and the environment are no such
fields. -/
def State.applyReset (s : State) : State :=
  { State.reset with cfg := s.cfg, inputs := s.inputs, cycle := s.cycle, rdata := s.rdata }

end Sys2Proof.Machine
end

