-- ==== Sys2Proof/Machine/Calibration.lean ====
section
/-! DEFINITION. The calibration commands TARE and SET_SCALE (42_calibration.md R170, R171). -/

namespace Sys2Proof.Machine

/-- TARE n at its CMD write (R170, R145). -/
def execTare (times : Nat) (s : State) : Host.Outcome State Fault Refusal :=
  .next (s.onCommand fun t => t.acceptCounted .tare (BitVec.ofNat 16 times))

/-- TARE's result: OFFSET <- -rnd_div(S, n), without the old OFFSET (R170). -/
def finishTare (s : State) : Host.Outcome State Fault Refusal :=
  if s.times = 0 then .fault .meanOfNothing
  else .next (State.complete { s with offset := BitVec.ofInt 32 (-(rndDiv s.acc.toInt s.times.toNat)) } .none)

/-- SET_SCALE (R171): SCALE_STG is copied if it is finite and nonzero, and refused with ERR_INVALID_ARG if not. -/
def execSetScale (s : State) : Host.Outcome State Fault Refusal :=
  .next (s.onCommand fun t =>
    if finiteNonzero t.scaleStg then State.complete { t with scale := t.scaleStg } .none
    else t.complete .invalidArg)

end Sys2Proof.Machine
end

