-- ==== Sys2Proof/Machine/Control.lean ====
section
/-! DEFINITION. The control commands at their CMD write: NOP, CONFIGURE, POWER_UP, POWER_DOWN and ABORT
(43_control.md R180 to R185). -/

namespace Sys2Proof.Machine

/-- NOP (R180). -/
def execNop (s : State) : Host.Outcome State Fault Refusal :=
  .next (s.onCommand fun t => t.complete .none)

/-- CONFIGURE g, r, p (R181): gain code 3 completes with ERR_CONFIG and leaves CONFIG unchanged. -/
def execConfigure (gain : Nat) (ready : ReadyMode) (wrap : Bool) (s : State) : Host.Outcome State Fault Refusal :=
  .next (s.onCommand fun t =>
    match gainOfCode gain with
    | none => t.complete .config
    | some g => State.complete { t with gain := g, rmode := ready, pwrap := wrap } .none)

/-- POWER_UP (R182): SCK low, then the settle delay of R122. -/
def execPowerUp (s : State) : Host.Outcome State Fault Refusal :=
  .next (s.onCommand fun t => t.startPower false .puSettle)

/-- POWER_DOWN (R183): SCK high, then the hold of R121. -/
def execPowerDown (s : State) : Host.Outcome State Fault Refusal :=
  .next (s.onCommand fun t => t.startPower true .pdHold)

/-- ABORT (R185): it ends a readiness wait, has no effect while idle, and is discarded in every other phase. -/
def execAbort (s : State) : Host.Outcome State Fault Refusal :=
  .next (match s.phase with
    | .waitRdy => State.complete { s with abt := true } .timeout
    | .idle => s
    | .pdHold => s.discardWrite
    | .puSettle => s.discardWrite
    | .wrapHi => s.discardWrite
    | .wrapLo => s.discardWrite
    | .clkHi => s.discardWrite
    | .clkLo => s.discardWrite
    | .recoverHi => s.discardWrite
    | .recoverLo => s.discardWrite)

end Sys2Proof.Machine
end

