-- ==== Sys2Proof/Machine/Conversion.lean ====
section
/-! DEFINITION. The conversion commands READ_RAW, READ_RAW_AVG, READ and READ_AVG: their CMD write (41_conversion.md R145) and
their result rules at the completion edge (R140 to R144). The phases between the two are in Phases.lean. -/

namespace Sys2Proof.Machine

/-- READ_RAW at its CMD write (R140, R145). -/
def execReadRaw (s : State) : Host.Outcome State Fault Refusal :=
  .next (s.onCommand fun t => t.acceptConversion .readRaw 1)

/-- READ_RAW_AVG n at its CMD write (R141, R145). -/
def execReadRawAvg (times : Nat) (s : State) : Host.Outcome State Fault Refusal :=
  .next (s.onCommand fun t => t.acceptCounted .readRawAvg (BitVec.ofNat 16 times))

/-- READ at its CMD write (R142, R145). -/
def execRead (s : State) : Host.Outcome State Fault Refusal :=
  .next (s.onCommand fun t => t.acceptConversion .read 1)

/-- READ_AVG n at its CMD write (R143, R145). -/
def execReadAvg (times : Nat) (s : State) : Host.Outcome State Fault Refusal :=
  .next (s.onCommand fun t => t.acceptCounted .readAvg (BitVec.ofNat 16 times))

/-- S, the sum of the samples of the command, as an exact rational (R111, R141). -/
def State.sum (s : State) : Rat := (s.acc.toInt : Rat)

/-- o, the value of OFFSET (R27). -/
def State.offsetVal (s : State) : Rat := (s.offset.toInt : Rat)

/-- The READ_RAW_AVG value RNE64(S / n + o) (R141). -/
def State.meanWord (s : State) : DWord := rne64 (s.sum / (s.times.toNat : Rat) + s.offsetVal)

/-- READ_RAW's result: RESULT_INT <- S + o (R140). -/
def finishReadRaw (s : State) : Host.Outcome State Fault Refusal :=
  .next (State.complete { s with resultInt := BitVec.ofInt 32 (s.acc.toInt + s.offset.toInt) } .none)

/-- READ_RAW_AVG's result: RESULT <- RNE64(S / n + o) (R141). -/
def finishReadRawAvg (s : State) : Host.Outcome State Fault Refusal :=
  if s.times = 0 then .fault .meanOfNothing
  else .next (State.complete { s with result := s.meanWord } .none)

/-- READ's result: RESULT <- RNE64((S + o) / val(SCALE)) (R142). -/
def finishRead (s : State) : Host.Outcome State Fault Refusal :=
  if finiteNonzero s.scale = false then .fault .scaleNotDivisor
  else .next (State.complete { s with result := rne64 ((s.sum + s.offsetVal) / val s.scale) } .none)

/-- READ_AVG's result: the READ_RAW_AVG value divided by SCALE, rounded a second time (R143). -/
def finishReadAvg (s : State) : Host.Outcome State Fault Refusal :=
  if s.times = 0 then .fault .meanOfNothing
  else if finiteNonzero s.scale = false then .fault .scaleNotDivisor
  else .next (State.complete { s with result := rne64 (val s.meanWord / val s.scale) } .none)

end Sys2Proof.Machine
end

