-- ==== Sys2Proof/Machine/Reserved.lean ====
section
/-! DEFINITION. The reserved opcodes 0xB to 0xF (30_encoding.md R85, 60_exceptions.md R200): ERR_ILLEGAL, whatever the other
28 bits hold. -/

namespace Sys2Proof.Machine

/-- OP = 0xB (R85). -/
def execReservedB (_rest : BitVec 28) (s : State) : Host.Outcome State Fault Refusal := .next s.illegalWord

/-- OP = 0xC (R85). -/
def execReservedC (_rest : BitVec 28) (s : State) : Host.Outcome State Fault Refusal := .next s.illegalWord

/-- OP = 0xD (R85). -/
def execReservedD (_rest : BitVec 28) (s : State) : Host.Outcome State Fault Refusal := .next s.illegalWord

/-- OP = 0xE (R85). -/
def execReservedE (_rest : BitVec 28) (s : State) : Host.Outcome State Fault Refusal := .next s.illegalWord

/-- OP = 0xF (R85). -/
def execReservedF (_rest : BitVec 28) (s : State) : Host.Outcome State Fault Refusal := .next s.illegalWord

end Sys2Proof.Machine
end

