-- ==== Sys2Proof/Machine/Dispatch.lean ====
section
/-! DEFINITION. One arm per command: the effect of writing its word to CMD at the edge of the write (60_exceptions.md R200,
R201). -/

namespace Sys2Proof.Machine

def exec (i : Instr) (s : State) : Host.Outcome State Fault Refusal :=
  match i with
  | .nop => Sys2Proof.Machine.execNop s
  | .configure gain ready wrap => Sys2Proof.Machine.execConfigure gain ready wrap s
  | .readRaw => Sys2Proof.Machine.execReadRaw s
  | .readRawAvg times => Sys2Proof.Machine.execReadRawAvg times s
  | .read => Sys2Proof.Machine.execRead s
  | .readAvg times => Sys2Proof.Machine.execReadAvg times s
  | .tare times => Sys2Proof.Machine.execTare times s
  | .powerUp => Sys2Proof.Machine.execPowerUp s
  | .powerDown => Sys2Proof.Machine.execPowerDown s
  | .setScale => Sys2Proof.Machine.execSetScale s
  | .abort => Sys2Proof.Machine.execAbort s
  | .reservedB rest => Sys2Proof.Machine.execReservedB rest s
  | .reservedC rest => Sys2Proof.Machine.execReservedC rest s
  | .reservedD rest => Sys2Proof.Machine.execReservedD rest s
  | .reservedE rest => Sys2Proof.Machine.execReservedE rest s
  | .reservedF rest => Sys2Proof.Machine.execReservedF rest s

end Sys2Proof.Machine
end

