-- ==== Sys2Proof/Machine/Bus.lean ====
section
/-! DEFINITION. Host accesses: BusRead (20_memory.md R63) and BusWrite (R64, 43_control.md R187). -/

namespace Sys2Proof.Machine

/-- A register's value as the host reads it in a cycle with the given DOUT level (R22 to R33, R63, R67). -/
def State.readReg (s : State) (dout : Bool) : Reg → Word
  | .cmd => 0
  | .status => s.statusWord dout
  | .config => s.configWord
  | .resultInt => s.resultInt
  | .resultLo => s.result.extractLsb' 0 32
  | .resultHi => s.result.extractLsb' 32 32
  | .offset => s.offset
  | .scaleLo => s.scale.extractLsb' 0 32
  | .scaleHi => s.scale.extractLsb' 32 32
  | .sample => s.sample
  | .scaleStgLo => s.scaleStg.extractLsb' 0 32
  | .scaleStgHi => s.scaleStg.extractLsb' 32 32
  | .timeoutUs => s.timeoutUs
  | .guardUs => s.guardUs
  | .settleUs => s.settleUs
  | .pdholdUs => s.pdholdUs

/-- `BusRead(off)`: 0 where no register is (R34, R63). -/
def State.busRead (s : State) (dout : Bool) (off : BitVec 8) : Word :=
  match regAt off with
  | some r => s.readReg dout r
  | none => 0

/-- A write to CMD: the command the word encodes, or an illegal word (R200, R201). -/
def writeCmd (v : Word) (s : State) : Host.Outcome State Fault Refusal :=
  match decode v with
  | .ok i => exec i s
  | .error _ => .next s.illegalWord

/-- A write to a timing register: it takes effect while idle and is discarded while busy (R64, R201). -/
def State.writeTiming (s : State) (written : State) : State :=
  if s.phase = .idle then written else s.discardWrite

/-- `BusWrite(off, v)` (R64). -/
def busWrite (off : BitVec 8) (v : Word) (s : State) : Host.Outcome State Fault Refusal :=
  match regAt off with
  | none => .next s
  | some .cmd => writeCmd v s
  | some .scaleStgLo => .next { s with scaleStg := s.scaleStg.extractLsb' 32 32 ++ v }
  | some .scaleStgHi => .next { s with scaleStg := v ++ s.scaleStg.extractLsb' 0 32 }
  | some .timeoutUs => .next (s.writeTiming { s with timeoutUs := v })
  | some .guardUs => .next (s.writeTiming { s with guardUs := v })
  | some .settleUs => .next (s.writeTiming { s with settleUs := v })
  | some .pdholdUs => .next (s.writeTiming { s with pdholdUs := v })
  | some .status => .next s
  | some .config => .next s
  | some .resultInt => .next s
  | some .resultLo => .next s
  | some .resultHi => .next s
  | some .offset => .next s
  | some .scaleLo => .next s
  | some .scaleHi => .next s
  | some .sample => .next s

/-- The effect of the cycle's host access (R62, R101). A read has none (R63). -/
def hostAccess (a : HostAccess) (s : State) : Host.Outcome State Fault Refusal :=
  match a with
  | .idle => .next s
  | .read _ => .next s
  | .write off v => busWrite off v s

/-- The read data of the cycle (R5, R63). -/
def State.readData (s : State) (inp : CycleInput) : Option Word :=
  match inp.access with
  | .idle => none
  | .read off => some (s.busRead inp.dout off)
  | .write _ _ => none

/-- Whether the access is an ABORT that R185 accepts, so that the phase step of the cycle is skipped (R101). -/
def State.acceptsAbort (s : State) (a : HostAccess) : Bool :=
  match a with
  | .idle => false
  | .read _ => false
  | .write off v => decide (regAt off = some .cmd) && decide (v = 0x0000000A) && decide (s.phase = .waitRdy)

end Sys2Proof.Machine
end

