-- ==== Sys2Proof/Machine/Phases.lean ====
section
/-! DEFINITION. The phase steps: the line protocol, cycle by cycle (40_line_protocol.md R104 to R109, R121 to R127). -/

namespace Sys2Proof.Machine

/-- WAIT_RDY: readiness beats timeout (R104, R205). -/
def waitRdyStep (inp : CycleInput) (s : State) : State :=
  if s.ready inp.dout then { s with sck := true, phase := .clkHi, cnt := 0, bitI := 0, shreg := 0 }
  else if duration s.cfg s.timeoutUs ≤ s.wcnt.toNat + 1 then s.complete .timeout
  else { s with wcnt := s.wcnt + 1 }

/-- CLK_HI: the high half of a pulse, sampled at the edge that ends its last cycle (R105). -/
def clkHiStep (inp : CycleInput) (s : State) : State :=
  if s.lineFault inp then s.enterRecovery
  else if s.cnt.toNat + 1 = s.cfg.tHigh then
    { s.sampleBit inp.dout with sck := false, phase := .clkLo, cnt := 0 }
  else { s with cnt := s.cnt + 1 }

/-- `finish()`: the result rule of the command in progress (R109, R144). Only the five conversion opcodes have one. -/
def finish (s : State) : Host.Outcome State Fault Refusal :=
  match s.op with
  | .readRaw => finishReadRaw s
  | .readRawAvg => finishReadRawAvg s
  | .read => finishRead s
  | .readAvg => finishReadAvg s
  | .tare => finishTare s
  | .nop => .fault .noResultRule
  | .configure => .fault .noResultRule
  | .powerUp => .fault .noResultRule
  | .powerDown => .fault .noResultRule
  | .setScale => .fault .noResultRule
  | .abort => .fault .noResultRule
  | .reservedB => .fault .noResultRule
  | .reservedC => .fault .noResultRule
  | .reservedD => .fault .noResultRule
  | .reservedE => .fault .noResultRule
  | .reservedF => .fault .noResultRule

/-- `end_conv()`: bookkeeping, then the next conversion or the command's result (R109). `nconv` is the value before this
edge's increment. -/
def endConv (s : State) : Host.Outcome State Fault Refusal :=
  if s.nconv.toNat + 1 < s.times.toNat then .next s.convBookkeeping.beginConv
  else finish s.convBookkeeping

/-- CLK_LO: the low half of a pulse (R107). -/
def clkLoStep (inp : CycleInput) (s : State) : Host.Outcome State Fault Refusal :=
  if s.lineFault inp then .next s.enterRecovery
  else if s.cnt.toNat + 1 = s.cfg.tLow then
    if s.bitI.toNat < 23 + s.npulse.toNat then
      .next { s with bitI := s.bitI + 1, sck := true, phase := .clkHi, cnt := 0 }
    else endConv s
  else .next { s with cnt := s.cnt + 1 }

/-- PD_HOLD: the hold of POWER_DOWN (R121). -/
def pdHoldStep (s : State) : State :=
  if duration s.cfg s.pdholdUs ≤ s.cnt.toNat + 1 then State.complete { s with pwr := false, nsel := 0 } .none
  else { s with cnt := s.cnt + 1 }

/-- PU_SETTLE: the settle delay of POWER_UP (R122). -/
def puSettleStep (s : State) : State :=
  if duration s.cfg s.settleUs ≤ s.cnt.toNat + 1 then State.complete { s with pwr := true } .none
  else { s with cnt := s.cnt + 1 }

/-- WRAP_HI: the power-down half of the power-wrap (R123). -/
def wrapHiStep (s : State) : State :=
  if duration s.cfg s.pdholdUs ≤ s.cnt.toNat + 1 then
    { s with pwr := false, nsel := 0, sck := false, phase := .wrapLo, cnt := 0 }
  else { s with cnt := s.cnt + 1 }

/-- WRAP_LO: the power-up half of the power-wrap (R124). -/
def wrapLoStep (s : State) : State :=
  if duration s.cfg s.settleUs ≤ s.cnt.toNat + 1 then { s with pwr := true, phase := .waitRdy, wcnt := 0 }
  else { s with cnt := s.cnt + 1 }

/-- RECOVER_HI: the power-down half of line-fault recovery (R125). -/
def recoverHiStep (s : State) : State :=
  if duration s.cfg s.pdholdUs ≤ s.cnt.toNat + 1 then
    { s with pwr := false, nsel := 0, sck := false, phase := .recoverLo, cnt := 0 }
  else { s with cnt := s.cnt + 1 }

/-- RECOVER_LO: the power-up half of line-fault recovery (R126). -/
def recoverLoStep (s : State) : State :=
  if duration s.cfg s.settleUs ≤ s.cnt.toNat + 1 then State.complete { s with pwr := true } .lineFault
  else { s with cnt := s.cnt + 1 }

/-- The phase step of phase `p`, the phase held at the start of the cycle (R101). IDLE changes nothing (R127). -/
def phaseStep (p : Phase) (inp : CycleInput) (s : State) : Host.Outcome State Fault Refusal :=
  match p with
  | .idle => .next s
  | .pdHold => .next (pdHoldStep s)
  | .puSettle => .next (puSettleStep s)
  | .wrapHi => .next (wrapHiStep s)
  | .wrapLo => .next (wrapLoStep s)
  | .waitRdy => .next (waitRdyStep inp s)
  | .clkHi => .next (clkHiStep inp s)
  | .clkLo => clkLoStep inp s
  | .recoverHi => .next (recoverHiStep s)
  | .recoverLo => .next (recoverLoStep s)

end Sys2Proof.Machine
end

