-- ==== Sys2Proof/Machine/Cycle.lean ====
section
/-! DEFINITION. One clk cycle: the order of a controller step (40_line_protocol.md R101), and how an input is presented. -/

namespace Sys2Proof.Machine

/-- The rising edge that ends a cycle with the given inputs (R101): reset before everything; else the host access, then the
step of the phase held at the start of the cycle unless an ABORT was accepted, then `since_last`. No rule's host access
writes a field that the phase step of a busy cycle reads, so doing them in turn is R7's writing together (log entry 5). -/
def clockEdge (inp : CycleInput) (s : State) : Host.Outcome State Fault Refusal :=
  if inp.rst then .next s.applyReset
  else
    andThen (hostAccess inp.access s) fun t =>
      if s.acceptsAbort inp.access then .next (t.tickSinceLast false)
      else andThen (phaseStep s.phase inp t) fun u => .next (u.tickSinceLast (s.endsConversion inp))

/-- What the model adds to an edge: the inputs of the cycle are used up, and its read data are given out (R5). A cycle under
reset yields none (R230, log entry 6). -/
def State.advance (s : State) (inp : CycleInput) (t : State) : State :=
  { t with
    inputs := s.inputs.tail
    cycle := s.cycle + 1
    rdata := if inp.rst then none else s.readData inp }

/-- One cycle from the state at its start. -/
def clockCycle (s : State) : Host.Outcome State Fault Refusal :=
  andThen (clockEdge s.currentInput s) fun t => .next (s.advance s.currentInput t)

/-- `s` with `a` as the host access of the current cycle, and `rst` at 0 in it; the line levels of the cycle stay. -/
def State.present (s : State) (a : HostAccess) : State :=
  { s with inputs := { s.currentInput with access := a, rst := false } :: s.inputs.tail }

/-- `s` with the write of a table row's word to CMD as the host access of the current cycle. -/
def State.presentWord (s : State) (nbits w : Nat) : State :=
  s.present (.write (regOffset .cmd) (tableWord nbits w))

end Sys2Proof.Machine
end

