-- ==== Sys2Proof/Machine/Step.lean ====
section
/-! DEFINITION. The step: one clk cycle (00_scope.md R5, 40_line_protocol.md R101). -/

namespace Sys2Proof.Machine

/-- One step of the block: one rising edge of `clk`, with the inputs of the cycle taken from the state (R5, R101). -/
def step (s : State) : Host.Outcome State Fault Refusal := clockCycle s

/-- Commands are not fetched (20_memory.md R72): this is the host writing the word to CMD in the current cycle (R22). -/
def State.withFetchWord (s : State) (nbits w : Nat) : State := s.presentWord nbits w

end Sys2Proof.Machine
end

