-- ==== Sys2Proof/Machine/HostAsm.lean ====
section
/-! DEFINITION. The host's side: the host assembly and its pseudo-instructions (30_encoding.md R94, R95), and a host program
running against the block. A program's position is the host's and no state of the block (10_state.md R21). -/

namespace Sys2Proof.Machine

/-- A line that makes register accesses (R94). -/
inductive HostLine where
  | wr (r : Reg) (v : Word)
  | rd (r : Reg)
  | poll (r : Reg) (mask value : Word)
  deriving DecidableEq, Repr

/-- The operand of a `CMD` line, the pseudo forms of R95 among them. -/
inductive HostCmd where
  | nop
  | configure (gain : Nat) (ready : ReadyMode) (wrap : Bool)
  /-- `CMD CONFIGURE gain=g` (R95). -/
  | configureGain (gain : Nat)
  /-- `CMD CONFIGURE` (R95). -/
  | configureDefault
  | readRaw
  | readRawAvg (times : Nat)
  | read
  | readAvg (times : Nat)
  | tare (times : Nat)
  /-- `CMD TARE` (R95). -/
  | tareDefault
  | powerUp
  | powerDown
  | setScale
  | abort
  deriving DecidableEq, Repr

/-- A line of a host program (R94, R95). -/
inductive HostSource where
  | line (l : HostLine)
  | cmd (c : HostCmd)
  | wait
  | setScale (f : DWord)
  | isReady
  deriving DecidableEq, Repr

/-- The gain code of a gain number; the assembler refuses every other number (R94). -/
def gainOfNumber (g : Nat) : Option Nat :=
  if g = 128 then some 0 else if g = 64 then some 1 else if g = 32 then some 2 else none

/-- The assembler refuses a count of 0 or above 65535 (R94). -/
def countOperand (n : Nat) : Option Nat := if 1 ≤ n ∧ n ≤ 65535 then some n else none

/-- The command a `CMD` line stands for, or `none` where the assembler refuses it (R94, R95). -/
def assembleCmd : HostCmd → Option Instr
  | .nop => some .nop
  | .configure gain ready wrap => (gainOfNumber gain).map fun g => .configure g ready wrap
  | .configureGain gain => (gainOfNumber gain).map fun g => .configure g .polling false
  | .configureDefault => some (.configure 0 .polling false)
  | .readRaw => some .readRaw
  | .readRawAvg times => (countOperand times).map .readRawAvg
  | .read => some .read
  | .readAvg times => (countOperand times).map .readAvg
  | .tare times => (countOperand times).map .tare
  | .tareDefault => some (.tare 10)
  | .powerUp => some .powerUp
  | .powerDown => some .powerDown
  | .setScale => some .setScale
  | .abort => some .abort

/-- The accesses of a source line (R94, R95). -/
def assemble : HostSource → Option (List HostLine)
  | .line l => some [l]
  | .cmd c => (assembleCmd c).map fun i => [.wr .cmd (encode i)]
  | .wait => some [.poll .status 0x1 0x0]
  | .setScale f =>
    some [.wr .scaleStgLo (f.extractLsb' 0 32), .wr .scaleStgHi (f.extractLsb' 32 32), .wr .cmd (encode .setScale)]
  | .isReady => some [.rd .status]

/-- The bit `ISREADY` takes from the STATUS word it read (R95). -/
def isReadyOf (status : Word) : Bool := status.getLsbD 2

/-- A whole program; one refused line refuses it (R94). -/
def assembleAll : List HostSource → Option (List HostLine)
  | [] => some []
  | l :: rest =>
    match assemble l, assembleAll rest with
    | some a, some b => some (a ++ b)
    | some _, none => none
    | none, some _ => none
    | none, none => none

/-- The address of a register in the host's address map (R68). -/
def hostAddress (c : Config) (r : Reg) : Nat := c.base + (regOffset r).toNat

/-- The access a program presents in a cycle (R94). -/
def hostPresents : List HostLine → HostAccess
  | [] => .idle
  | .wr r v :: _ => .write (regOffset r) v
  | .rd r :: _ => .read (regOffset r)
  | .poll r _ _ :: _ => .read (regOffset r)

/-- The lines left after a cycle that yielded `rdata`: a `POLL` stays until a read meets it (R94). -/
def hostContinues (p : List HostLine) (rdata : Option Word) : List HostLine :=
  match p with
  | [] => []
  | .wr _ _ :: rest => rest
  | .rd _ :: rest => rest
  | .poll r mask value :: rest =>
    match rdata with
    | some d => if d &&& mask = value then rest else .poll r mask value :: rest
    | none => .poll r mask value :: rest

/-- One cycle of a host program and the block together; the line levels are those of the listed inputs. -/
def hostedCycle (p : List HostLine) (s : State) : Host.Outcome (List HostLine × State) Fault Refusal :=
  match clockCycle (s.present (hostPresents p)) with
  | .next t => .next (hostContinues p t.rdata, t)
  | .fault r => .fault r
  | .refused r => .refused r

end Sys2Proof.Machine
end

