-- ==== Sys2Proof/Safety.lean ====
section
/-! DEFINITION. The terms claims are stated in: the invariant every step keeps, a bound on the cycles a command still takes, and
the bits a transaction samples. -/

namespace Sys2Proof.Machine

/-- The SCK column of 10_state.md R41; in IDLE the level is 0 when PWR = 1 and 1 when PWR = 0. -/
def sckLevel (p : Phase) (pwr : Bool) : Bool :=
  match p with
  | .idle => !pwr
  | .pdHold => true
  | .puSettle => false
  | .wrapHi => true
  | .wrapLo => false
  | .waitRdy => false
  | .clkHi => true
  | .clkLo => false
  | .recoverHi => true
  | .recoverLo => false

/-- The phases of a conversion command before it fails or completes. -/
def convPhase : Phase → Bool
  | .idle => false
  | .pdHold => false
  | .puSettle => false
  | .wrapHi => true
  | .wrapLo => true
  | .waitRdy => true
  | .clkHi => true
  | .clkLo => true
  | .recoverHi => false
  | .recoverLo => false

/-- The five conversion opcodes (41_conversion.md R145). -/
def convOpcode : Opcode → Bool
  | .readRaw => true
  | .readRawAvg => true
  | .read => true
  | .readAvg => true
  | .tare => true
  | .nop => false
  | .configure => false
  | .powerUp => false
  | .powerDown => false
  | .setScale => false
  | .abort => false
  | .reservedB => false
  | .reservedC => false
  | .reservedD => false
  | .reservedE => false
  | .reservedF => false

/-- A binary64 word that is a NaN (R67). -/
def isNaN (b : DWord) : Bool := decide (expField b = 0x7FF) && decide (fracField b ≠ 0)

/-- The counter of the current phase is below the phase's duration (40_line_protocol.md R104 to R107, R121 to R126). -/
def State.counterInRange (s : State) : Prop :=
  match s.phase with
  | .idle => True
  | .pdHold => s.cnt.toNat < duration s.cfg s.pdholdUs
  | .puSettle => s.cnt.toNat < duration s.cfg s.settleUs
  | .wrapHi => s.cnt.toNat < duration s.cfg s.pdholdUs
  | .wrapLo => s.cnt.toNat < duration s.cfg s.settleUs
  | .waitRdy => s.wcnt.toNat < duration s.cfg s.timeoutUs
  | .clkHi => s.cnt.toNat < s.cfg.tHigh
  | .clkLo => s.cnt.toNat < s.cfg.tLow
  | .recoverHi => s.cnt.toNat < duration s.cfg s.pdholdUs
  | .recoverLo => s.cnt.toNat < duration s.cfg s.settleUs

/-- What holds of every state a run reaches. -/
structure State.Inv (s : State) : Prop where
  /-- SCK has the level of its phase (R41). -/
  sck_level : s.sck = sckLevel s.phase s.pwr
  /-- A command in progress has cleared DONE, ERR and ABT (R145, R182, R183). -/
  busy_status : s.phase ≠ .idle → s.done = false ∧ s.err = .none ∧ s.abt = false
  /-- A conversion phase belongs to a conversion command (R145). -/
  conv_op : convPhase s.phase = true → convOpcode s.op = true
  /-- A conversion is still to come in every conversion phase (R109). -/
  conv_count : convPhase s.phase = true → s.nconv.toNat < s.times.toNat
  /-- READ_RAW and READ make one conversion (R145). -/
  conv_single : convPhase s.phase = true → s.op = .readRaw ∨ s.op = .read → s.times = 1
  /-- The pulse count is the one of the configured gain (R112). -/
  conv_pulses : convPhase s.phase = true → s.npulse = gainBits s.gain
  /-- The accumulator is a sum of `nconv` samples (R40, R111). -/
  conv_acc : convPhase s.phase = true →
    -(2 ^ 23 : Int) * s.nconv.toNat ≤ s.acc.toInt ∧ s.acc.toInt ≤ (2 ^ 23 - 1 : Int) * s.nconv.toNat
  /-- The pulse index is 0 to 23 + N (R40). -/
  pulse_index : s.phase = .clkHi ∨ s.phase = .clkLo → s.bitI.toNat ≤ 23 + s.npulse.toNat
  /-- The chip is powered in the wait, while clocking and at the start of recovery (R184, R124). -/
  powered : s.phase = .waitRdy ∨ s.phase = .clkHi ∨ s.phase = .clkLo ∨ s.phase = .recoverHi → s.pwr = true
  /-- The chip is down in the low half of a power cycle (R123, R125). -/
  unpowered : s.phase = .wrapLo ∨ s.phase = .recoverLo → s.pwr = false
  /-- No selection survives a power-down (R42). -/
  nsel_unpowered : s.pwr = false → s.nsel = 0
  /-- A selection was sent by a completed conversion (R42, R111). -/
  nsel_hasPrev : s.nsel ≠ 0 → s.hasPrev = true
  /-- The range of OFFSET (R27). -/
  offset_range : -(2 ^ 23 - 1 : Int) ≤ s.offset.toInt ∧ s.offset.toInt ≤ 2 ^ 23
  /-- The range of a sample (R110). -/
  sample_range : -(2 ^ 23 : Int) ≤ s.sample.toInt ∧ s.sample.toInt ≤ 2 ^ 23 - 1
  /-- The range of READ_RAW's result (R140). -/
  resultInt_range : -(2 ^ 24 - 1 : Int) ≤ s.resultInt.toInt ∧ s.resultInt.toInt ≤ 2 ^ 24 - 1
  /-- SCALE is finite and nonzero (R28). -/
  scale_divisor : finiteNonzero s.scale = true
  /-- RESULT is never a NaN (R160). -/
  result_notNaN : isNaN s.result = false
  /-- The phase's counter has not passed its end. -/
  counter : s.counterInRange

/-- Cycles of the power-wrap prologue and of a recovery: a hold and a settle (R116, 70_reset_and_hazards.md R243). -/
def State.powerCycle (s : State) : Nat := duration s.cfg s.pdholdUs + duration s.cfg s.settleUs

/-- Cycles of one pulse, P of R243. -/
def State.pulseCycles (s : State) : Nat := s.cfg.tHigh + s.cfg.tLow

/-- Cycles of the pulses of one transaction, (24 + N) P of R243. -/
def State.clockCycles (s : State) : Nat := (24 + s.npulse.toNat) * s.pulseCycles

/-- The cycles of the prologue before each conversion, Wr of R243: 0 where PWRAP is 0. -/
def State.prologueCycles (s : State) : Nat := if s.pwrap then s.powerCycle else 0

/-- The most cycles a whole conversion can take (R243 with w = D(TIMEOUT_US)). -/
def State.conversionCycles (s : State) : Nat := s.prologueCycles + duration s.cfg s.timeoutUs + s.clockCycles

/-- A bound on the cycles until the command in progress has ended (R243, R244): 0 while idle. In a conversion phase it counts the
rest of this conversion, the whole conversions after it, and one recovery. -/
def State.cyclesLeft (s : State) : Nat :=
  let later := (s.times.toNat - s.nconv.toNat - 1) * s.conversionCycles + s.powerCycle
  let pulsesAfter := (23 + s.npulse.toNat - s.bitI.toNat) * s.pulseCycles
  match s.phase with
  | .idle => 0
  | .pdHold => duration s.cfg s.pdholdUs - s.cnt.toNat
  | .puSettle => duration s.cfg s.settleUs - s.cnt.toNat
  | .wrapHi => s.powerCycle - s.cnt.toNat + duration s.cfg s.timeoutUs + s.clockCycles + later
  | .wrapLo => duration s.cfg s.settleUs - s.cnt.toNat + duration s.cfg s.timeoutUs + s.clockCycles + later
  | .waitRdy => duration s.cfg s.timeoutUs - s.wcnt.toNat + s.clockCycles + later
  | .clkHi => s.pulseCycles - s.cnt.toNat + pulsesAfter + later
  | .clkLo => s.cfg.tLow - s.cnt.toNat + pulsesAfter + later
  | .recoverHi => s.powerCycle - s.cnt.toNat
  | .recoverLo => duration s.cfg s.settleUs - s.cnt.toNat

/-- An input that lets a run go on undisturbed: no reset and no line fault. -/
def undisturbed (c : Config) (inp : CycleInput) : Bool := !inp.rst && !(c.hasLineErr && inp.lineErr)

/-- The DOUT level of the `k`th listed input; high where none is listed. -/
def doutAt (inputs : List CycleInput) (k : Nat) : Bool :=
  match inputs[k]? with
  | some inp => inp.dout
  | none => true

/-- The field of the first `n` data pulses of a transaction whose first CLK_HI cycle has the first listed input: the bit of pulse k is
the DOUT level of its last high cycle, shifted in at the low end (40_line_protocol.md R105, R106, R66). -/
def sampledBits (c : Config) (inputs : List CycleInput) : Nat → Nat
  | 0 => 0
  | k + 1 => 2 * sampledBits c inputs k + (doutAt inputs (k * (c.tHigh + c.tLow) + (c.tHigh - 1))).toNat

/-- The 24-bit field of such a transaction (R66, R106). -/
def sampledField (c : Config) (inputs : List CycleInput) : BitVec 24 := BitVec.ofNat 24 (sampledBits c inputs 24)

/-- The access writes no register. -/
def quietAccess : HostAccess → Bool
  | .idle => true
  | .read _ => true
  | .write _ _ => false

end Sys2Proof.Machine
end

