-- ==== Sys2Proof/Certificates/Slice0/Obligations.lean ====
section
/-! DEFINITION. The statements about TWADC-RX, each from the rules its docstring cites. A docstring that says MODEL'S CHOICE names the
log entry that clause rests on. -/

namespace Sys2Proof.Machine

/-- The mask column of 30_encoding.md R84, by opcode; the match column is the opcode itself. -/
def specMask (op : Nat) : Word :=
  if op = 0x1 then 0xFFFFFF0F
  else if op = 0x3 ∨ op = 0x5 ∨ op = 0x6 then 0x0000FFFF
  else if op ≤ 0xA then 0xFFFFFFFF
  else 0x0000000F

/-- The OP field of a word as a number (R80). -/
def specOp (w : Word) : Nat := w.toNat % 16

/-- R85's illegal words: a reserved opcode, or a 1 outside the opcode's fields. -/
def specIllegal (w : Word) : Bool :=
  decide (0xB ≤ specOp w) || decide (w &&& specMask (specOp w) ≠ BitVec.ofNat 32 (specOp w))

/-- The state after an accepted command that completes at its accepting edge with a code (R200, R203). -/
def completedAtOnce (s : State) (e : ErrCode) : State :=
  { s with rej := false, abt := false, done := true, err := e, phase := .idle }

/-- The state after the acceptance of a conversion command (R145, R102). -/
def conversionStarted (s : State) (op : Opcode) (times : BitVec 16) : State :=
  { s with
    op := op, times := times, nconv := 0, acc := 0
    npulse := match s.gain with
      | .g128 => 1
      | .g64 => 3
      | .g32 => 2
    done := false, err := .none, rej := false, abt := false
    sck := s.pwrap
    phase := if s.pwrap then .wrapHi else .waitRdy
    cnt := if s.pwrap then 0 else s.cnt
    wcnt := if s.pwrap then s.wcnt else 0 }

/-- The state after the acceptance of a power command (R182, R183). -/
def powerStarted (s : State) (level : Bool) (p : Phase) : State :=
  { s with done := false, err := .none, rej := false, abt := false, sck := level, phase := p, cnt := 0 }

/-- The bookkeeping of a completed conversion (R111) but for `since_last`, with the sample read as two's complement. -/
def conversionBooked (s : State) : State :=
  { s with
    sample := s.shreg.signExtend 32
    acc := s.acc + s.shreg.signExtend 48
    nconv := s.nconv + 1
    hasPrev := true
    nsel := s.npulse }

/-- What every cycle does at its end beside the phase step (R114, R5): `t` is the state the phase step gives. -/
def cycleEnd (s t : State) (convEnded : Bool) : State :=
  { t with
    sinceLast := if convEnded then 0 else if t.sinceLast = BitVec.allOnes 64 then t.sinceLast else t.sinceLast + 1
    inputs := s.inputs.tail
    cycle := s.cycle + 1
    rdata := match s.currentInput.access with
      | .read off => some (s.busRead s.currentInput.dout off)
      | .write _ _ => none
      | .idle => none }

/-- The cycle has no reset and no host write. -/
def quietCycle (s : State) : Prop := s.currentInput.rst = false ∧ quietAccess s.currentInput.access = true

/-- The block sees no line fault in the cycle (R113). -/
def noLineFault (s : State) : Prop := (s.cfg.hasLineErr && s.currentInput.lineErr) = false

/-- The edge ends the last low cycle of the last pulse of a transaction (R107). -/
def transactionEnds (s : State) : Prop :=
  s.phase = .clkLo ∧ noLineFault s ∧ s.cnt.toNat + 1 = s.cfg.tLow ∧ 23 + s.npulse.toNat ≤ s.bitI.toNat

end Sys2Proof.Machine

open Sys2Proof Sys2Proof.Machine

/-! ## Reset -/

/-- R230, with the values of R43: an edge under reset. The parameters stay, and the read data are none, by MODEL'S CHOICE (log
entries 3 and 6). -/
def Obligations.ResetEdgeGivesEveryFieldItsValue : Prop :=
  ∀ s : State, s.currentInput.rst = true →
    step s = .next
      { cfg := s.cfg, gain := .g128, rmode := .polling, pwrap := false, done := false, rej := false, abt := false,
        err := .none, resultInt := 0, result := 0, offset := 0, scale := 0x3FF0000000000000, sample := 0,
        scaleStg := 0x3FF0000000000000, timeoutUs := 1000000, guardUs := 10000, settleUs := 1000, pdholdUs := 100,
        phase := .idle, op := .nop, times := 0, nconv := 0, npulse := 0, bitI := 0, shreg := 0, acc := 0, cnt := 0,
        wcnt := 0, sinceLast := 0, hasPrev := false, pwr := true, nsel := 0, sck := false,
        inputs := s.inputs.tail, cycle := s.cycle + 1, rdata := none }

/-- The invariant holds right after reset (R43). -/
def Obligations.ResetStateMeetsInvariant : Prop := State.reset.Inv

/-! ## Encoding -/

/-- Decoding an encoded command gives it back, with every operand at every value its field admits (R80 to R84). -/
def Obligations.DecodeOfEncodeGivesCommandBack : Prop :=
  ∀ i : Instr, i.WellFormed → decode (encode i) = .ok i

/-- A decoded command is well-formed, and its word is the one it was decoded from: each word has one meaning (R84, R85). -/
def Obligations.EncodeOfDecodeGivesWordBack : Prop :=
  ∀ (w : Word) (i : Instr), decode w = .ok i → i.WellFormed ∧ encode i = w

/-- R84: a word encodes a row's operation exactly when its masked bits are the row's match. -/
def Obligations.WordEncodesRowIffMaskedBitsMatch : Prop :=
  ∀ (w : Word) (op : Opcode),
    (∃ i, decode w = .ok i ∧ i.opcode = op) ↔
      w &&& specMask op.code.toNat = BitVec.ofNat 32 op.code.toNat

/-- R86's examples, written out from the layout of R80. -/
def Obligations.ExampleWordsDecode : Prop :=
  decode 0x00000001 = .ok (.configure 0 .polling false) ∧
  decode 0x00000011 = .ok (.configure 1 .polling false) ∧
  decode 0x000000E1 = .ok (.configure 2 .debounced true) ∧
  decode 0x000A0006 = .ok (.tare 10) ∧
  decode 0x00010003 = .ok (.readRawAvg 1) ∧
  decode 0xFFFF0005 = .ok (.readAvg 65535) ∧
  decode 0x00000005 = .ok (.readAvg 0) ∧
  decode 0x00000031 = .ok (.configure 3 .polling false) ∧
  decode 0x00010002 = .error (.strayBits .readRaw) ∧
  decode 0x00000102 = .error (.strayBits .readRaw) ∧
  decode 0x0000000B = .ok (.reservedB 0)

/-! ## Acceptance, completion and errors -/

/-- R200 whole: a CMD write while idle, the checks in their order, and the acceptance actions of R145, R171, R180 to R183. -/
def Obligations.AcceptanceChecksInOrder : Prop :=
  ∀ (s : State) (w : Word), s.phase = .idle →
    busWrite 0x00 w s = .next (
      let op := specOp w
      let times := w.toNat / 2 ^ 16
      let gain := w.toNat / 2 ^ 4 % 4
      if w = 0x0000000A then s
      else if specIllegal w then completedAtOnce s .illegal
      else if op = 1 ∧ gain = 3 then completedAtOnce s .config
      else if (op = 3 ∨ op = 5 ∨ op = 6) ∧ times = 0 then completedAtOnce s .invalidArg
      else if op = 9 ∧ finiteNonzero s.scaleStg = false then completedAtOnce s .invalidArg
      else if (op = 2 ∨ op = 3 ∨ op = 4 ∨ op = 5 ∨ op = 6) ∧ s.pwr = false ∧ s.pwrap = false then
        completedAtOnce s .poweredDown
      else if op = 0 then completedAtOnce s .none
      else if op = 1 then
        completedAtOnce
          { s with
            gain := if gain = 0 then .g128 else if gain = 1 then .g64 else .g32
            rmode := if w.toNat / 2 ^ 6 % 2 = 1 then .debounced else .polling
            pwrap := decide (w.toNat / 2 ^ 7 % 2 = 1) } .none
      else if op = 9 then completedAtOnce { s with scale := s.scaleStg } .none
      else if op = 7 then powerStarted s false .puSettle
      else if op = 8 then powerStarted s true .pdHold
      else if op = 2 then conversionStarted s .readRaw 1
      else if op = 3 then conversionStarted s .readRawAvg (BitVec.ofNat 16 times)
      else if op = 4 then conversionStarted s .read 1
      else if op = 5 then conversionStarted s .readAvg (BitVec.ofNat 16 times)
      else conversionStarted s .tare (BitVec.ofNat 16 times))

/-- R201 whole: a CMD write while busy, but for an ABORT in WAIT_RDY, and a timing-register write while busy, set REJ and do
nothing else; and REJ, once set, is cleared only by a later command word written while idle (or by reset). -/
def Obligations.BusyWritesAreDiscarded : Prop :=
  (∀ (s : State) (w : Word), s.phase ≠ .idle →
    (¬(w = 0x0000000A ∧ s.phase = .waitRdy) → busWrite 0x00 w s = .next { s with rej := true }) ∧
    (∀ off ∈ ([0x30, 0x34, 0x38, 0x3C] : List (BitVec 8)), busWrite off w s = .next { s with rej := true })) ∧
  (∀ s t : State, s.rej = true → s.currentInput.rst = false → step s = .next t → t.rej = false →
    s.phase = .idle ∧ ∃ off w, s.currentInput.access = .write off w ∧ off.toNat < 4 ∧ w ≠ 0x0000000A)

/-- R180: NOP, its word, and the other words with OP = 0, which are illegal. -/
def Obligations.NopClearsStatusAndCompletes : Prop :=
  decode 0x00000000 = .ok .nop ∧
  ∀ s : State, s.phase = .idle →
    exec .nop s = .next { s with rej := false, abt := false, phase := .idle, done := true, err := .none } ∧
    ∀ w : Word, specOp w = 0 → w ≠ 0 → busWrite 0x00 w s = .next (completedAtOnce s .illegal)

/-- R181: CONFIGURE, with gain code 3 refused and CONFIG then unchanged. -/
def Obligations.ConfigureSetsConfigOrErrConfig : Prop :=
  ∀ (s : State) (r : ReadyMode) (p : Bool), s.phase = .idle →
    exec (.configure 0 r p) s = .next (completedAtOnce { s with gain := .g128, rmode := r, pwrap := p } .none) ∧
    exec (.configure 1 r p) s = .next (completedAtOnce { s with gain := .g64, rmode := r, pwrap := p } .none) ∧
    exec (.configure 2 r p) s = .next (completedAtOnce { s with gain := .g32, rmode := r, pwrap := p } .none) ∧
    exec (.configure 3 r p) s = .next (completedAtOnce s .config)

/-- R171: SET_SCALE copies a finite nonzero SCALE_STG, finite_nonzero being R161's, and refuses every other. -/
def Obligations.SetScaleCopiesFiniteNonzeroStaging : Prop :=
  ∀ s : State, s.phase = .idle →
    (s.scaleStg.extractLsb' 52 11 ≠ 0x7FF ∧ s.scaleStg.extractLsb' 0 63 ≠ 0 →
      exec .setScale s = .next (completedAtOnce { s with scale := s.scaleStg } .none)) ∧
    (s.scaleStg.extractLsb' 52 11 = 0x7FF ∨ s.scaleStg.extractLsb' 0 63 = 0 →
      exec .setScale s = .next (completedAtOnce s .invalidArg))

/-- R145 for the five conversion commands, powered or with the power-wrap on. -/
def Obligations.ConversionCommandsAreAccepted : Prop :=
  ∀ (s : State) (n : Nat), s.phase = .idle → s.pwr = true ∨ s.pwrap = true → 1 ≤ n → n ≤ 65535 →
    exec .readRaw s = .next (conversionStarted s .readRaw 1) ∧
    exec .read s = .next (conversionStarted s .read 1) ∧
    exec (.readRawAvg n) s = .next (conversionStarted s .readRawAvg (BitVec.ofNat 16 n)) ∧
    exec (.readAvg n) s = .next (conversionStarted s .readAvg (BitVec.ofNat 16 n)) ∧
    exec (.tare n) s = .next (conversionStarted s .tare (BitVec.ofNat 16 n))

/-- R184, and R83 with R205's order: a conversion command while powered down without the power-wrap, and a count of 0. -/
def Obligations.ConversionCommandsAreGated : Prop :=
  ∀ (s : State) (n : Nat), s.phase = .idle → 1 ≤ n → n ≤ 65535 →
    (s.pwr = false → s.pwrap = false →
      exec .readRaw s = .next (completedAtOnce s .poweredDown) ∧
      exec .read s = .next (completedAtOnce s .poweredDown) ∧
      exec (.readRawAvg n) s = .next (completedAtOnce s .poweredDown) ∧
      exec (.readAvg n) s = .next (completedAtOnce s .poweredDown) ∧
      exec (.tare n) s = .next (completedAtOnce s .poweredDown)) ∧
    exec (.readRawAvg 0) s = .next (completedAtOnce s .invalidArg) ∧
    exec (.readAvg 0) s = .next (completedAtOnce s .invalidArg) ∧
    exec (.tare 0) s = .next (completedAtOnce s .invalidArg)

/-- R182 and R183 at the accepting edge: POWER_UP drives SCK low, POWER_DOWN drives it high. -/
def Obligations.PowerCommandsStartTheirSequence : Prop :=
  ∀ s : State, s.phase = .idle →
    exec .powerUp s = .next (powerStarted s false .puSettle) ∧
    exec .powerDown s = .next (powerStarted s true .pdHold)

/-- R185: ABORT by the phase of its cycle. -/
def Obligations.AbortEndsOnlyAReadinessWait : Prop :=
  ∀ s : State,
    (s.phase = .waitRdy → exec .abort s = .next { s with abt := true, phase := .idle, done := true, err := .timeout }) ∧
    (s.phase = .idle → exec .abort s = .next s) ∧
    (s.phase ≠ .waitRdy → s.phase ≠ .idle → exec .abort s = .next { s with rej := true })

/-- R85 for the reserved opcodes: ERR_ILLEGAL, whatever the other bits. -/
def Obligations.ReservedOpcodesCompleteWithErrIllegal : Prop :=
  ∀ (s : State) (rest : BitVec 28), s.phase = .idle →
    exec (.reservedB rest) s = .next (completedAtOnce s .illegal) ∧
    exec (.reservedC rest) s = .next (completedAtOnce s .illegal) ∧
    exec (.reservedD rest) s = .next (completedAtOnce s .illegal) ∧
    exec (.reservedE rest) s = .next (completedAtOnce s .illegal) ∧
    exec (.reservedF rest) s = .next (completedAtOnce s .illegal)

/-! ## Host accesses -/

/-- R63 with the map of R22 to R34: the value a read returns. -/
def Obligations.BusReadReturnsTheNamedRegister : Prop :=
  ∀ (s : State) (dout : Bool) (off : BitVec 8),
    s.busRead dout off =
      (let a := off.toNat / 4 * 4
       if a = 0x04 then s.statusWord dout
       else if a = 0x08 then s.configWord
       else if a = 0x0C then s.resultInt
       else if a = 0x10 then BitVec.ofNat 32 (s.result.toNat % 2 ^ 32)
       else if a = 0x14 then BitVec.ofNat 32 (s.result.toNat / 2 ^ 32)
       else if a = 0x18 then s.offset
       else if a = 0x1C then BitVec.ofNat 32 (s.scale.toNat % 2 ^ 32)
       else if a = 0x20 then BitVec.ofNat 32 (s.scale.toNat / 2 ^ 32)
       else if a = 0x24 then s.sample
       else if a = 0x28 then BitVec.ofNat 32 (s.scaleStg.toNat % 2 ^ 32)
       else if a = 0x2C then BitVec.ofNat 32 (s.scaleStg.toNat / 2 ^ 32)
       else if a = 0x30 then s.timeoutUs
       else if a = 0x34 then s.guardUs
       else if a = 0x38 then s.settleUs
       else if a = 0x3C then s.pdholdUs
       else 0)

/-- R23, R186 and R24: the fields of STATUS and CONFIG, with R202's and R41's codes; the reserved bits read 0. -/
def Obligations.StatusAndConfigWordsHoldTheirFields : Prop :=
  ∀ (s : State) (dout : Bool),
    (s.statusWord dout).toNat =
      (if s.phase = .idle then 0 else 1) + 2 * s.done.toNat
      + 4 * (if dout = false ∧ s.phase = .idle then 1 else 0) + 8 * s.pwr.toNat + 16 * dout.toNat
      + 32 * s.rej.toNat + 64 * s.abt.toNat
      + 2 ^ 8 * (match s.err with
          | .none => 0
          | .config => 1
          | .timeout => 2
          | .invalidArg => 3
          | .lineFault => 4
          | .illegal => 5
          | .poweredDown => 6)
      + 2 ^ 12 * (match s.phase with
          | .idle => 0
          | .pdHold => 1
          | .puSettle => 2
          | .wrapHi => 3
          | .wrapLo => 4
          | .waitRdy => 5
          | .clkHi => 6
          | .clkLo => 7
          | .recoverHi => 8
          | .recoverLo => 9)
      + 2 ^ 16 * s.nsel.toNat ∧
    s.configWord.toNat =
      (match s.gain with
        | .g128 => 0
        | .g64 => 1
        | .g32 => 2)
      + 4 * (match s.rmode with
        | .polling => 0
        | .debounced => 1)
      + 8 * s.pwrap.toNat

/-- R64 but for CMD, with R62: what a write does, by the register its offset names. -/
def Obligations.BusWriteChangesOnlyItsRegister : Prop :=
  ∀ (s : State) (off : BitVec 8) (v : Word), 4 ≤ off.toNat →
    busWrite off v s = .next (
      let a := off.toNat / 4 * 4
      let timing (t : State) : State := if s.phase = .idle then t else { s with rej := true }
      if a = 0x28 then { s with scaleStg := BitVec.ofNat 64 (s.scaleStg.toNat / 2 ^ 32 * 2 ^ 32 + v.toNat) }
      else if a = 0x2C then { s with scaleStg := BitVec.ofNat 64 (v.toNat * 2 ^ 32 + s.scaleStg.toNat % 2 ^ 32) }
      else if a = 0x30 then timing { s with timeoutUs := v }
      else if a = 0x34 then timing { s with guardUs := v }
      else if a = 0x38 then timing { s with settleUs := v }
      else if a = 0x3C then timing { s with pdholdUs := v }
      else s)

/-- R34: an unmapped offset reads 0, and a write to it is ignored and does not set REJ. -/
def Obligations.UnmappedOffsetsReadZeroAndIgnoreWrites : Prop :=
  ∀ (s : State) (dout : Bool) (off : BitVec 8) (v : Word), 0x40 ≤ off.toNat →
    s.busRead dout off = 0 ∧ busWrite off v s = .next s

/-- R63: a cycle with a read leaves every state component, but for the read data it yields, as the same cycle without an access
would; the data are the value of the register at the start of the cycle. -/
def Obligations.ReadsHaveNoSideEffect : Prop :=
  ∀ (s t : State) (inp : CycleInput) (rest : List CycleInput) (off : BitVec 8),
    s.inputs = { inp with access := .read off, rst := false } :: rest →
    step { s with inputs := { inp with access := .idle, rst := false } :: rest } = .next t →
    step s = .next { t with rdata := some (s.busRead inp.dout off) }

/-! ## The cycle -/

/-- R101, R64 and R200 while idle: the step of a cycle with a host write is `busWrite` of it, whatever the offset and the value, with
the cycle's end around it (R114, R5); where the write is of a word to CMD that decodes to a command, that is `exec` of the command. -/
def Obligations.IdleStepRunsTheDecodedCommand : Prop :=
  (∀ (s t : State) (off : BitVec 8) (v : Word), s.phase = .idle → s.currentInput.rst = false →
    s.currentInput.access = .write off v → busWrite off v s = .next t →
    step s = .next (cycleEnd s t false)) ∧
  (∀ (s t : State) (off : BitVec 8) (w : Word) (i : Instr), s.phase = .idle → s.currentInput.rst = false →
    s.currentInput.access = .write off w → off.toNat < 4 → decode w = .ok i → exec i s = .next t →
    step s = .next (cycleEnd s t false))

/-- R101 while busy: an accepted ABORT is all its cycle does; after every other command write the phase step of the phase held at
the start runs, on what `exec` of the command leaves. The same for every host write, whatever its offset and value, with `busWrite`
in place of `exec` (R64, R201): the two staging words, the timing registers and the illegal words among them. -/
def Obligations.BusyStepRunsCommandThenPhaseStep : Prop :=
  (∀ (s t : State) (off : BitVec 8) (w : Word) (i : Instr), s.phase ≠ .idle → s.currentInput.rst = false →
    s.currentInput.access = .write off w → off.toNat < 4 → decode w = .ok i → exec i s = .next t →
    (i = .abort → s.phase = .waitRdy → step s = .next (cycleEnd s t false)) ∧
    (¬(i = .abort ∧ s.phase = .waitRdy) → ∀ u, phaseStep s.phase s.currentInput t = .next u →
      step s = .next (cycleEnd s u (s.endsConversion s.currentInput)))) ∧
  (∀ (s t u : State) (off : BitVec 8) (v : Word), s.phase ≠ .idle → s.currentInput.rst = false →
    s.currentInput.access = .write off v → ¬(off.toNat < 4 ∧ v = 0x0000000A ∧ s.phase = .waitRdy) →
    busWrite off v s = .next t → phaseStep s.phase s.currentInput t = .next u →
    step s = .next (cycleEnd s u (s.endsConversion s.currentInput)))

/-- A word placed with `withFetchWord` is what the next step runs: for every idle state and every row word that decodes (R22, R72). -/
def Obligations.PlacedWordRunsInTheNextStep : Prop :=
  ∀ (s t : State) (w : Nat) (i : Instr), s.phase = .idle → decodeTableWord 32 w = some i →
    exec i (s.withFetchWord 32 w) = .next t →
    step (s.withFetchWord 32 w) = .next (cycleEnd (s.withFetchWord 32 w) t false)

/-- R127 and R101: an idle cycle without a host write changes nothing but the end of cycle. -/
def Obligations.QuietIdleCycleChangesNothing : Prop :=
  ∀ s : State, s.phase = .idle → quietCycle s → step s = .next (cycleEnd s s false)

/-- R114: at every edge not under reset `since_last` is 0 where a transaction ended, and otherwise one more, saturating; `has_prev`
becomes 1 where one ended, and stays as it is elsewhere. -/
def Obligations.SinceLastCountsFromConversionEnd : Prop :=
  ∀ s t : State, s.currentInput.rst = false → step s = .next t →
    (transactionEnds s → t.sinceLast = 0 ∧ t.hasPrev = true) ∧
    (¬transactionEnds s → t.sinceLast.toNat = min (s.sinceLast.toNat + 1) (2 ^ 64 - 1) ∧ t.hasPrev = s.hasPrev)

/-- R201, R187: while busy no host write but an accepted ABORT affects the command in progress. Beside `rej`, `scaleStg` and the read
data, the step is the one of the same cycle without an access. Outside reset REJ and SCALE_STG become what the access itself makes them
(R64, R201), so REJ is not cleared, and the read data are those of R63; under reset the access has no effect at all (R230). -/
def Obligations.BusyHostAccessDoesNotDisturb : Prop :=
  ∀ (s t : State) (inp : CycleInput) (rest : List CycleInput),
    s.phase ≠ .idle → s.inputs = inp :: rest → s.acceptsAbort inp.access = false →
    step { s with inputs := { inp with access := .idle } :: rest } = .next t →
    ∃ t', step s = .next t' ∧
      t' = { t with rej := t'.rej, scaleStg := t'.scaleStg, rdata := t'.rdata } ∧
      (inp.rst = true → t' = t) ∧
      (inp.rst = false →
        (∀ u, hostAccess inp.access s = .next u → t'.rej = u.rej ∧ t'.scaleStg = u.scaleStg) ∧
        (s.rej = true → t'.rej = true) ∧
        t'.rdata = match inp.access with
          | .read off => some (s.busRead inp.dout off)
          | .write _ _ => none
          | .idle => none)

/-! ## The line protocol -/

/-- R104 with R103: a WAIT_RDY cycle. Readiness beats the timeout. -/
def Obligations.ReadinessWaitStartsOrTimesOutOrCounts : Prop :=
  ∀ s : State, s.phase = .waitRdy → quietCycle s →
    step s = .next (cycleEnd s (
      if s.currentInput.dout = false ∧
          (s.rmode = .polling ∨ s.hasPrev = false ∨ s.guardUs.toNat * s.cfg.cycPerUs ≤ s.sinceLast.toNat) then
        { s with sck := true, phase := .clkHi, cnt := 0, bitI := 0, shreg := 0 }
      else if max 1 (s.timeoutUs.toNat * s.cfg.cycPerUs) ≤ s.wcnt.toNat + 1 then
        { s with phase := .idle, done := true, err := .timeout }
      else { s with wcnt := s.wcnt + 1 }) false)

/-- R105 with R106: a CLK_HI cycle. The bit of a data pulse is shifted in at the low end. -/
def Obligations.HighHalfSamplesAtItsLastCycle : Prop :=
  ∀ s : State, s.phase = .clkHi → quietCycle s →
    step s = .next (cycleEnd s (
      if s.cfg.hasLineErr = true ∧ s.currentInput.lineErr = true then
        { s with sck := true, phase := .recoverHi, cnt := 0 }
      else if s.cnt.toNat + 1 = s.cfg.tHigh then
        { s with
          shreg := if s.bitI.toNat < 24 then BitVec.ofNat 24 (2 * s.shreg.toNat + s.currentInput.dout.toNat) else s.shreg
          sck := false, phase := .clkLo, cnt := 0 }
      else { s with cnt := s.cnt + 1 }) false)

/-- R107 but for the end of the transaction: a CLK_LO cycle. -/
def Obligations.LowHalfGoesToTheNextPulse : Prop :=
  ∀ s : State, s.phase = .clkLo → quietCycle s → ¬transactionEnds s →
    step s = .next (cycleEnd s (
      if s.cfg.hasLineErr = true ∧ s.currentInput.lineErr = true then
        { s with sck := true, phase := .recoverHi, cnt := 0 }
      else if s.cnt.toNat + 1 = s.cfg.tLow then
        { s with bitI := s.bitI + 1, sck := true, phase := .clkHi, cnt := 0 }
      else { s with cnt := s.cnt + 1 }) false)

/-- R109, R111 and R102: the end of a conversion that is not the command's last books the sample and begins the next conversion, with
the power-wrap prologue where PWRAP is 1. -/
def Obligations.NonFinalConversionBooksAndBeginsTheNext : Prop :=
  ∀ s : State, quietCycle s → transactionEnds s → s.nconv.toNat + 1 < s.times.toNat →
    step s = .next (cycleEnd s
      { conversionBooked s with
        sck := s.pwrap
        phase := if s.pwrap then .wrapHi else .waitRdy
        cnt := if s.pwrap then 0 else s.cnt
        wcnt := if s.pwrap then s.wcnt else 0 } true)

/-- R140's result with R111 and R203: the last conversion of READ_RAW writes RESULT_INT, which never wraps. -/
def Obligations.ReadRawWritesSampleSumPlusOffset : Prop :=
  ∀ s : State, s.Inv → quietCycle s → transactionEnds s → s.op = .readRaw →
    ∃ r : Word, r.toInt = s.acc.toInt + s.shreg.toInt + s.offset.toInt ∧
      step s = .next (cycleEnd s
        { conversionBooked s with resultInt := r, phase := .idle, done := true, err := .none } true)

/-- The results of R141, R142 and R143: one rounding of the exact mean, one of the exact quotient, and two for READ_AVG. The
invariant gives a count of at least 1 and a finite nonzero SCALE. -/
def Obligations.RealResultsAreRoundedQuotients : Prop :=
  ∀ s : State, s.Inv → quietCycle s → transactionEnds s → s.nconv.toNat + 1 = s.times.toNat →
    let total : Rat := ((s.acc.toInt + s.shreg.toInt : Int) : Rat)
    let o : Rat := (s.offset.toInt : Rat)
    let mean : DWord := rne64 (total / (s.times.toNat : Rat) + o)
    let done (r : DWord) : Host.Outcome State Fault Refusal :=
      .next (cycleEnd s { conversionBooked s with result := r, phase := .idle, done := true, err := .none } true)
    (s.op = .readRawAvg → step s = done mean) ∧
    (s.op = .read → step s = done (rne64 ((total + o) / val s.scale))) ∧
    (s.op = .readAvg → step s = done (rne64 (val mean / val s.scale)))

/-- R170's result: the last conversion of TARE writes OFFSET <- -m for the integer m that R162 calls nearest to the mean, ties to
even; the old OFFSET has no effect. -/
def Obligations.TareWritesNegatedRoundedMean : Prop :=
  ∀ s : State, s.Inv → quietCycle s → transactionEnds s → s.op = .tare → s.nconv.toNat + 1 = s.times.toNat →
    ∃ (o : Word) (m : Int), o.toInt = -m ∧
      |(m : Rat) - ((s.acc.toInt + s.shreg.toInt : Int) : Rat) / (s.times.toNat : Rat)| ≤ 1 / 2 ∧
      (|(m : Rat) - ((s.acc.toInt + s.shreg.toInt : Int) : Rat) / (s.times.toNat : Rat)| = 1 / 2 → m % 2 = 0) ∧
      step s = .next (cycleEnd s
        { conversionBooked s with offset := o, phase := .idle, done := true, err := .none } true)

/-- R113 and R205: a line fault while clocking beats everything else of the edge, the end of the transaction included. -/
def Obligations.LineFaultAbandonsTheTransaction : Prop :=
  ∀ s : State, s.phase = .clkHi ∨ s.phase = .clkLo → quietCycle s → s.cfg.hasLineErr = true →
    s.currentInput.lineErr = true →
    step s = .next (cycleEnd s { s with sck := true, phase := .recoverHi, cnt := 0 } false)

/-- R121 to R126: the six timed phases of the power sequences. -/
def Obligations.PowerPhasesHoldThenMoveOn : Prop :=
  ∀ s : State, quietCycle s →
    let holdEnds : Prop := max 1 (s.pdholdUs.toNat * s.cfg.cycPerUs) ≤ s.cnt.toNat + 1
    let settleEnds : Prop := max 1 (s.settleUs.toNat * s.cfg.cycPerUs) ≤ s.cnt.toNat + 1
    let counted : Host.Outcome State Fault Refusal := .next (cycleEnd s { s with cnt := s.cnt + 1 } false)
    (s.phase = .pdHold → holdEnds → step s = .next (cycleEnd s
      { s with pwr := false, nsel := 0, phase := .idle, done := true, err := .none } false)) ∧
    (s.phase = .puSettle → settleEnds → step s = .next (cycleEnd s
      { s with pwr := true, phase := .idle, done := true, err := .none } false)) ∧
    (s.phase = .wrapHi → holdEnds → step s = .next (cycleEnd s
      { s with pwr := false, nsel := 0, sck := false, phase := .wrapLo, cnt := 0 } false)) ∧
    (s.phase = .wrapLo → settleEnds → step s = .next (cycleEnd s
      { s with pwr := true, phase := .waitRdy, wcnt := 0 } false)) ∧
    (s.phase = .recoverHi → holdEnds → step s = .next (cycleEnd s
      { s with pwr := false, nsel := 0, sck := false, phase := .recoverLo, cnt := 0 } false)) ∧
    (s.phase = .recoverLo → settleEnds → step s = .next (cycleEnd s
      { s with pwr := true, phase := .idle, done := true, err := .lineFault } false)) ∧
    (s.phase = .pdHold ∨ s.phase = .wrapHi ∨ s.phase = .recoverHi → ¬holdEnds → step s = counted) ∧
    (s.phase = .puSettle ∨ s.phase = .wrapLo ∨ s.phase = .recoverLo → ¬settleEnds → step s = counted)

/-! ## Numerics -/

/-- R110: decode24 is two's complement, the masked form of the source included, and its range. -/
def Obligations.SampleDecodingIsTwosComplement : Prop :=
  ∀ f : BitVec 24,
    decode24 f = f.toInt ∧
    decode24 f = ((f &&& 0x7FFFFF).toNat : Int) - ((f &&& 0x800000).toNat : Int) ∧
    decode24 f = (f.signExtend 32).toInt ∧
    -(2 ^ 23 : Int) ≤ decode24 f ∧ decode24 f ≤ 2 ^ 23 - 1

/-- R162: rnd_div is the integer nearest to s / n, ties to even; it is odd-symmetric, and stays in the range of a sample. -/
def Obligations.RoundedDivisionIsNearestTiesToEven : Prop :=
  ∀ (s : Int) (n : Nat), 1 ≤ n →
    (∀ m : Int, |(rndDiv s n : Rat) - (s : Rat) / n| ≤ |(m : Rat) - (s : Rat) / n|) ∧
    (∀ m : Int, m ≠ rndDiv s n → |(rndDiv s n : Rat) - (s : Rat) / n| = |(m : Rat) - (s : Rat) / n| →
      rndDiv s n % 2 = 0) ∧
    rndDiv (-s) n = -(rndDiv s n) ∧
    (-(2 ^ 23 : Rat) ≤ (s : Rat) / n → (s : Rat) / n ≤ 2 ^ 23 - 1 →
      -(2 ^ 23 : Int) ≤ rndDiv s n ∧ rndDiv s n ≤ 2 ^ 23 - 1)

/-- R160: RNE64 below the overflow threshold is a finite encoding of an element of F nearest to q, ties going to the encoding with bit 0
equal to 0, with the sign of q where it is nonzero; above it is an infinity of q's sign; 0 gives +0.0. -/
def Obligations.RoundingToBinary64IsNearestTiesToEven : Prop :=
  ∀ q : Rat,
    (q = 0 → rne64 q = 0) ∧
    (2 ^ 1024 - 2 ^ 970 ≤ q → rne64 q = 0x7FF0000000000000) ∧
    (q ≤ -(2 ^ 1024 - 2 ^ 970) → rne64 q = 0xFFF0000000000000) ∧
    (|q| < 2 ^ 1024 - 2 ^ 970 →
      finite (rne64 q) = true ∧
      (∀ m e : Int, |m| < 2 ^ 53 → -1074 ≤ e → e ≤ 971 →
        |val (rne64 q) - q| ≤ |(m : Rat) * 2 ^ e - q| ∧
        (|val (rne64 q) - q| = |(m : Rat) * 2 ^ e - q| → (m : Rat) * 2 ^ e ≠ val (rne64 q) →
          (rne64 q).getLsbD 0 = false)) ∧
      (val (rne64 q) ≠ 0 → ((rne64 q).getLsbD 63 = true ↔ q < 0)))

/-- R141's corner case: a mean over a power of two is exactly representable, so READ_RAW_AVG does not round it. -/
def Obligations.PowerOfTwoMeansAreExact : Prop :=
  ∀ (total o : Int) (k : Nat), k ≤ 16 → |total| ≤ 2 ^ 23 * 2 ^ k → |o| ≤ 2 ^ 23 →
    val (rne64 ((total : Rat) / (2 ^ k : Rat) + (o : Rat))) = (total : Rat) / (2 ^ k : Rat) + (o : Rat)

/-- R170 with R140 to R143: the last edge of a TARE whose n samples are all c (their sum is n c) leaves OFFSET = -c, and from then on,
while OFFSET stays so and every sample is c, the last edge of READ_RAW_AVG, of READ and of READ_AVG leaves RESULT = +0.0, that of
READ_RAW leaves RESULT_INT = 0, and that of another TARE leaves the same OFFSET. The counts of the commands need not be the same. -/
def Obligations.TareUnderConstantSamplesZeroesTheMean : Prop :=
  (∀ (s : State) (c : Int), s.Inv → quietCycle s → transactionEnds s → s.op = .tare →
    s.nconv.toNat + 1 = s.times.toNat → s.acc.toInt + s.shreg.toInt = (s.times.toNat : Int) * c →
    ∃ t, step s = .next t ∧ t.offset.toInt = -c ∧
      ∀ u : State, u.Inv → quietCycle u → transactionEnds u → u.offset = t.offset →
        u.nconv.toNat + 1 = u.times.toNat → u.acc.toInt + u.shreg.toInt = (u.times.toNat : Int) * c →
        ∃ v, step u = .next v ∧ v.phase = .idle ∧ v.err = .none ∧
          (u.op = .readRawAvg ∨ u.op = .read ∨ u.op = .readAvg → v.result = 0) ∧
          (u.op = .readRaw → v.resultInt = 0) ∧
          (u.op = .tare → v.offset = t.offset)) ∧
  (∀ (c : Int) (n : Nat), 1 ≤ n →
    rndDiv (n * c) n = c ∧
    rne64 (((n * c : Int) : Rat) / n + ((-(rndDiv (n * c) n) : Int) : Rat)) = 0)

/-! ## Invariants and whole-machine rules -/

/-- The invariant is kept by every step, under every input. -/
def Obligations.EveryStepKeepsInvariant : Prop :=
  ∀ s s' : State, s.Inv → step s = .next s' → s'.Inv

/-- No run reaches a stop: from a state that meets the invariant every step answers a next state, whatever the inputs. The three faults
are MODEL'S CHOICE (log entry 7). -/
def Obligations.EveryStepAnswersANextState : Prop :=
  ∀ s : State, s.Inv → ∃ s', step s = .next s'

/-- R244: every command ends within the bound of R243, under every input but reset. `cyclesLeft` counts the longest wait of every
conversion still to come, the power-wrap prologue where PWRAP is 1 (Wr of R243), and one recovery. CYC_PER_US below 2^32 is R100's own
condition on the 64-bit counters; the one on T_LOW_CYC is the same for the pulse counter. MODEL'S CHOICE (log entry 1): past the listed
inputs `rst` is 0. -/
def Obligations.EveryCommandEndsWithinItsBound : Prop :=
  ∀ s : State, s.Inv → s.phase ≠ .idle → s.cfg.cycPerUs < 2 ^ 32 → s.cfg.tLow ≤ 2 ^ 64 →
    (∀ inp ∈ s.inputs, inp.rst = false) →
    ∃ (k : Nat) (t : State), k ≤ s.cyclesLeft ∧ Host.Core.run core k s = .next t ∧ t.phase = .idle ∧ t.done = true

/-- R203 with R71 and R202: a cycle that ends a command sets DONE, and writes no result, OFFSET or SCALE where the code is an error; a
cycle that does not end one changes none of them, but for SET_SCALE's at its accepting edge. -/
def Obligations.ResultsChangeOnlyAtSuccessfulCompletion : Prop :=
  ∀ s t : State, s.currentInput.rst = false → step s = .next t →
    (s.phase ≠ .idle → t.phase = .idle → t.done = true) ∧
    (s.resultInt ≠ t.resultInt ∨ s.result ≠ t.result ∨ s.offset ≠ t.offset →
      s.phase = .clkLo ∧ t.phase = .idle ∧ t.done = true ∧ t.err = .none) ∧
    (s.scale ≠ t.scale → s.phase = .idle ∧ t.phase = .idle ∧ t.done = true ∧ t.err = .none ∧ t.scale = s.scaleStg)

/-- R27, R25 and R26: each data register is written only by its own commands. -/
def Obligations.EachResultRegisterHasItsOwnWriter : Prop :=
  ∀ s t : State, s.currentInput.rst = false → step s = .next t →
    (s.offset ≠ t.offset → s.op = .tare) ∧
    (s.resultInt ≠ t.resultInt → s.op = .readRaw) ∧
    (s.result ≠ t.result → s.op = .readRawAvg ∨ s.op = .read ∨ s.op = .readAvg) ∧
    (s.sample ≠ t.sample → transactionEnds s)

/-- R24 and R28: outside reset CONFIG changes only by a CONFIGURE word, SCALE only by a SET_SCALE word, each written to CMD while idle. -/
def Obligations.OnlyConfigureAndSetScaleWriteTheirRegisters : Prop :=
  ∀ s t : State, s.currentInput.rst = false → step s = .next t →
    (s.gain ≠ t.gain ∨ s.rmode ≠ t.rmode ∨ s.pwrap ≠ t.pwrap →
      s.phase = .idle ∧ ∃ off w, s.currentInput.access = .write off w ∧ off.toNat < 4 ∧ specOp w = 1) ∧
    (s.scale ≠ t.scale →
      s.phase = .idle ∧ ∃ off, s.currentInput.access = .write off 0x00000009 ∧ off.toNat < 4)

/-- R145 and R239: a command sees one configuration throughout. While busy no step changes CONFIG, SCALE, the timing registers, or the
parameters; OFFSET only where the command ends. -/
def Obligations.ConfigurationIsConstantWhileBusy : Prop :=
  ∀ s t : State, s.currentInput.rst = false → s.phase ≠ .idle → step s = .next t →
    t.gain = s.gain ∧ t.rmode = s.rmode ∧ t.pwrap = s.pwrap ∧ t.scale = s.scale ∧ t.timeoutUs = s.timeoutUs ∧
    t.guardUs = s.guardUs ∧ t.settleUs = s.settleUs ∧ t.pdholdUs = s.pdholdUs ∧ t.cfg = s.cfg ∧
    (t.phase ≠ .idle → t.offset = s.offset)

/-- R218 and R42: PWR falls, and NSEL is cleared, only where a power-down hold ends; PWR rises only where a settle delay ends; NSEL becomes
N only where a conversion completes. -/
def Obligations.PowerAndSelectionChangeOnlyAtTheirEdges : Prop :=
  ∀ s t : State, s.currentInput.rst = false → step s = .next t →
    (s.pwr = true → t.pwr = false →
      (s.phase = .pdHold ∨ s.phase = .wrapHi ∨ s.phase = .recoverHi) ∧
      duration s.cfg s.pdholdUs ≤ s.cnt.toNat + 1 ∧ t.nsel = 0) ∧
    (s.pwr = false → t.pwr = true →
      (s.phase = .puSettle ∨ s.phase = .wrapLo ∨ s.phase = .recoverLo) ∧ duration s.cfg s.settleUs ≤ s.cnt.toNat + 1) ∧
    (s.nsel ≠ t.nsel →
      (transactionEnds s ∧ t.nsel = s.npulse) ∨
      ((s.phase = .pdHold ∨ s.phase = .wrapHi ∨ s.phase = .recoverHi) ∧ t.pwr = false ∧ t.nsel = 0))

/-- R108 and R242: once clocking has begun, only a line fault or reset keeps a transaction from its last selector pulse. Until the
transaction ends, a step from CLK_HI or CLK_LO stays clocking and never takes back a pulse. -/
def Obligations.ClockingRunsToItsEnd : Prop :=
  ∀ s t : State, s.Inv → s.phase = .clkHi ∨ s.phase = .clkLo → s.currentInput.rst = false → noLineFault s →
    ¬transactionEnds s → step s = .next t →
    (t.phase = .clkHi ∨ t.phase = .clkLo) ∧ t.npulse = s.npulse ∧
    (t.bitI = s.bitI ∨ s.phase = .clkLo ∧ t.bitI.toNat = s.bitI.toNat + 1)

/-- R204: DONE, ERR and ABT hold from a completion until a command is written to CMD or the block is reset. -/
def Obligations.StatusHoldsUntilTheNextCommand : Prop :=
  ∀ s t : State, s.phase = .idle → s.currentInput.rst = false → step s = .next t →
    s.done ≠ t.done ∨ s.err ≠ t.err ∨ s.abt ≠ t.abt ∨ t.phase ≠ .idle →
    ∃ off w, s.currentInput.access = .write off w ∧ off.toNat < 4 ∧ w ≠ 0x0000000A

/-! ## Runs -/

/-- R105 to R107 and R116: the waveform of a transaction. From its first high cycle SCK is high for T_HIGH_CYC and low for T_LOW_CYC cycles
in each of the 24 + N pulses, whatever the host does. -/
def Obligations.TransactionWaveform : Prop :=
  ∀ (s : State) (j : Nat), s.phase = .clkHi → s.sck = true → s.cnt = 0 → s.bitI = 0 →
    s.cfg.cycPerUs < 2 ^ 32 → s.cfg.tLow ≤ 2 ^ 64 →
    j < (24 + s.npulse.toNat) * (s.cfg.tHigh + s.cfg.tLow) → j ≤ s.inputs.length →
    (∀ inp ∈ s.inputs, undisturbed s.cfg inp = true) →
    ∃ t, Host.Core.run core j s = .next t ∧
      t.sck = decide (j % (s.cfg.tHigh + s.cfg.tLow) < s.cfg.tHigh) ∧
      t.bitI.toNat = j / (s.cfg.tHigh + s.cfg.tLow)

/-- R66, R105 and R106: the 24 data pulses of a transaction shift in the levels of their last high cycles, the first one into bit 23. -/
def Obligations.DataPulsesReceiveTheFieldMsbFirst : Prop :=
  ∀ s : State, s.phase = .clkHi → s.cnt = 0 → s.bitI = 0 → s.shreg = 0 → 1 ≤ s.npulse.toNat →
    s.cfg.cycPerUs < 2 ^ 32 → s.cfg.tLow ≤ 2 ^ 64 →
    24 * (s.cfg.tHigh + s.cfg.tLow) ≤ s.inputs.length →
    (∀ inp ∈ s.inputs, undisturbed s.cfg inp = true) →
    ∃ t, Host.Core.run core (24 * (s.cfg.tHigh + s.cfg.tLow)) s = .next t ∧ t.phase = .clkHi ∧ t.bitI = 24 ∧
      t.cnt = 0 ∧
      ∀ k < 24, t.shreg.getLsbD (23 - k) =
        doutAt s.inputs (k * (s.cfg.tHigh + s.cfg.tLow) + (s.cfg.tHigh - 1))

/-- R140 with R116 and R145: READ_RAW from its write to its result. The command word is written while idle, powered, without the power-wrap,
in polling mode; DOUT goes low in wait cycle w. After w + (24 + N) (T_HIGH_CYC + T_LOW_CYC) more cycles the command has completed,
RESULT_INT is the decoded field plus OFFSET, and no other result has changed. -/
def Obligations.ReadRawFromWriteToResult : Prop :=
  ∀ (s : State) (w : Nat) (first : CycleInput) (rest : List CycleInput),
    s.Inv → s.phase = .idle → s.pwr = true → s.pwrap = false → s.rmode = .polling →
    s.cfg.cycPerUs < 2 ^ 32 → s.cfg.tLow ≤ 2 ^ 64 →
    s.inputs = first :: rest → first.access = .write 0x00 0x00000002 → first.rst = false →
    1 ≤ w → w ≤ duration s.cfg s.timeoutUs →
    rest.length = w + (24 + (gainBits s.gain).toNat) * (s.cfg.tHigh + s.cfg.tLow) →
    (∀ inp ∈ rest, undisturbed s.cfg inp = true ∧ quietAccess inp.access = true) →
    (∀ k, k + 1 < w → doutAt rest k = true) → doutAt rest (w - 1) = false →
    ∃ t, Host.Core.run core (1 + rest.length) s = .next t ∧
      t.phase = .idle ∧ t.done = true ∧ t.err = .none ∧ t.rej = false ∧ t.abt = false ∧ t.sck = false ∧
      t.sample = (sampledField s.cfg (rest.drop w)).signExtend 32 ∧
      t.resultInt.toInt = (sampledField s.cfg (rest.drop w)).toInt + s.offset.toInt ∧
      t.nsel = gainBits s.gain ∧ t.result = s.result ∧ t.offset = s.offset ∧ t.scale = s.scale

/-- R182, R183 with R121 and R122: a power command from its write to its end. POWER_DOWN ends D(PDHOLD_US) cycles after its edge with PWR 0,
NSEL 0 and SCK high; POWER_UP ends D(SETTLE_US) cycles after its edge with PWR 1 and SCK low; under every
host access and line level meanwhile, with no listed reset. The list need not cover the run: MODEL'S CHOICE (log entry 1): past the
listed inputs `rst` is 0 and the host is idle. -/
def Obligations.PowerCommandsFromWriteToEnd : Prop :=
  ∀ (s : State) (first : CycleInput) (rest : List CycleInput),
    s.phase = .idle → s.cfg.cycPerUs < 2 ^ 32 → s.inputs = first :: rest → first.rst = false →
    (∀ inp ∈ rest, inp.rst = false) →
    (first.access = .write 0x00 0x00000008 →
      ∃ t, Host.Core.run core (1 + duration s.cfg s.pdholdUs) s = .next t ∧ t.phase = .idle ∧ t.pwr = false ∧
        t.nsel = 0 ∧ t.done = true ∧ t.err = .none ∧ t.sck = true ∧ t.abt = false) ∧
    (first.access = .write 0x00 0x00000007 →
      ∃ t, Host.Core.run core (1 + duration s.cfg s.settleUs) s = .next t ∧ t.phase = .idle ∧ t.pwr = true ∧
        t.nsel = s.nsel ∧ t.done = true ∧ t.err = .none ∧ t.sck = false ∧ t.abt = false)

/-- R104 as a run: a wait in which DOUT stays high times out at the end of exactly its D(TIMEOUT_US)th cycle, with SCK low throughout. -/
def Obligations.WaitTimesOutAfterExactlyItsBound : Prop :=
  ∀ s : State, s.phase = .waitRdy → s.wcnt = 0 → s.sck = false → s.cfg.cycPerUs < 2 ^ 32 →
    s.inputs.length = duration s.cfg s.timeoutUs →
    (∀ inp ∈ s.inputs, inp.rst = false ∧ inp.dout = true ∧ quietAccess inp.access = true) →
    (∀ j < duration s.cfg s.timeoutUs, ∃ t, Host.Core.run core j s = .next t ∧ t.phase = .waitRdy ∧ t.sck = false) ∧
    ∃ t, Host.Core.run core (duration s.cfg s.timeoutUs) s = .next t ∧ t.phase = .idle ∧ t.done = true ∧
      t.err = .timeout ∧ t.sck = false ∧ t.resultInt = s.resultInt ∧ t.result = s.result ∧ t.offset = s.offset ∧
      t.sample = s.sample ∧ t.nsel = s.nsel

/-- R113 with R125, R126 and R202: a line fault while clocking is reported as ERR_LINE_FAULT after one recovery power cycle, under
every host access and line level meanwhile, with no listed reset, and no result is written. The list need not cover the run: MODEL'S
CHOICE (log entry 1): past the listed inputs `rst` is 0 and the host is idle. -/
def Obligations.LineFaultRecoversThenReports : Prop :=
  ∀ s : State, s.phase = .clkHi ∨ s.phase = .clkLo → s.cfg.cycPerUs < 2 ^ 32 → s.cfg.hasLineErr = true →
    s.currentInput.lineErr = true → (∀ inp ∈ s.inputs, inp.rst = false) →
    ∃ t, Host.Core.run core (1 + duration s.cfg s.pdholdUs + duration s.cfg s.settleUs) s = .next t ∧
      t.phase = .idle ∧ t.done = true ∧ t.err = .lineFault ∧ t.pwr = true ∧ t.nsel = 0 ∧ t.sck = false ∧
      t.resultInt = s.resultInt ∧ t.result = s.result ∧ t.offset = s.offset ∧ t.scale = s.scale

/-- R123, R124 and R116: the power-wrap prologue holds SCK high for D(PDHOLD_US) cycles and low for D(SETTLE_US), and then the readiness
wait begins, powered and with no selection held; under every host access and line level meanwhile, with no listed reset. The list need
not cover the run: MODEL'S CHOICE (log entry 1): past the listed inputs `rst` is 0 and the host is idle. -/
def Obligations.PowerWrapPrologueLeadsToTheWait : Prop :=
  ∀ s : State, s.phase = .wrapHi → s.cnt = 0 → s.sck = true → s.cfg.cycPerUs < 2 ^ 32 →
    (∀ inp ∈ s.inputs, inp.rst = false) →
    (∀ j ≤ duration s.cfg s.pdholdUs + duration s.cfg s.settleUs, ∃ t, Host.Core.run core j s = .next t ∧
      t.sck = decide (j < duration s.cfg s.pdholdUs)) ∧
    ∃ t, Host.Core.run core (duration s.cfg s.pdholdUs + duration s.cfg s.settleUs) s = .next t ∧
      t.phase = .waitRdy ∧ t.wcnt = 0 ∧ t.pwr = true ∧ t.nsel = 0 ∧ t.sck = false ∧ t.acc = s.acc ∧ t.nconv = s.nconv

/-! ## The host's side -/

/-- R94 and R95. A `CMD` line assembles to one write to CMD of its command's word, the words written out from R80 to R84; a count of 0
or above 65535 and a gain outside 128, 64 and 32 are refused, and nothing else is. `WR`, `RD` and `POLL` lines stand for themselves. The
six pseudo-instructions expand as their table says, and `ISREADY` takes STATUS.RDY. What is accepted is a well-formed command that no
acceptance check on its fields refuses. -/
def Obligations.AssembledCommandsHaveLegalOperands : Prop :=
  let wr (n : Nat) : Option (List HostLine) := some [.wr .cmd (BitVec.ofNat 32 n)]
  let counted (op n : Nat) : Option (List HostLine) := if 1 ≤ n ∧ n ≤ 65535 then wr (n * 2 ^ 16 + op) else none
  let configured (g : Nat) (r : ReadyMode) (p : Bool) : Option (List HostLine) :=
    let rest := (match r with
      | .polling => 0
      | .debounced => 2 ^ 6) + 2 ^ 7 * p.toNat
    if g = 128 then wr (0x1 + rest) else if g = 64 then wr (0x11 + rest) else if g = 32 then wr (0x21 + rest) else none
  (∀ c : HostCmd, assemble (.cmd c) = match c with
    | .nop => wr 0x0
    | .configure g r p => configured g r p
    | .configureGain g => configured g .polling false
    | .configureDefault => configured 128 .polling false
    | .readRaw => wr 0x2
    | .readRawAvg n => counted 0x3 n
    | .read => wr 0x4
    | .readAvg n => counted 0x5 n
    | .tare n => counted 0x6 n
    | .tareDefault => counted 0x6 10
    | .powerUp => wr 0x7
    | .powerDown => wr 0x8
    | .setScale => wr 0x9
    | .abort => wr 0xA) ∧
  (∀ c : HostCmd, assembleCmd c = match c with
    | .nop => some .nop
    | .configure g r p =>
      if g = 128 then some (.configure 0 r p) else if g = 64 then some (.configure 1 r p)
      else if g = 32 then some (.configure 2 r p) else none
    | .configureGain g => assembleCmd (.configure g .polling false)
    | .configureDefault => assembleCmd (.configure 128 .polling false)
    | .readRaw => some .readRaw
    | .readRawAvg n => if 1 ≤ n ∧ n ≤ 65535 then some (.readRawAvg n) else none
    | .read => some .read
    | .readAvg n => if 1 ≤ n ∧ n ≤ 65535 then some (.readAvg n) else none
    | .tare n => if 1 ≤ n ∧ n ≤ 65535 then some (.tare n) else none
    | .tareDefault => assembleCmd (.tare 10)
    | .powerUp => some .powerUp
    | .powerDown => some .powerDown
    | .setScale => some .setScale
    | .abort => some .abort) ∧
  (∀ (c : HostCmd) (i : Instr), assembleCmd c = some i →
    i.WellFormed ∧ assemble (.cmd c) = some [.wr .cmd (encode i)] ∧ decode (encode i) = .ok i ∧
    (∀ g r p, i = .configure g r p → g < 3) ∧
    (∀ n, i = .readRawAvg n ∨ i = .readAvg n ∨ i = .tare n → 1 ≤ n)) ∧
  (∀ l : HostLine, assemble (.line l) = some [l]) ∧
  assemble .wait = some [.poll .status 0x1 0x0] ∧
  (∀ f : DWord, assemble (.setScale f) =
    some [.wr .scaleStgLo (BitVec.ofNat 32 (f.toNat % 2 ^ 32)), .wr .scaleStgHi (BitVec.ofNat 32 (f.toNat / 2 ^ 32)),
      .wr .cmd 0x00000009]) ∧
  assemble .isReady = some [.rd .status] ∧
  (∀ (s : State) (dout : Bool),
    isReadyOf (s.busRead dout (regOffset .status)) = decide (dout = false ∧ s.phase = .idle))
end

