-- ==== Sys2Proof/Laws/Bits.lean ====
section
/-! SUPPORT. Concatenation and low-bit masks as arithmetic. -/

namespace Sys2Proof

/-- `a ++ b` as a number: a in the high bits (00_scope.md R7). -/
theorem toNat_append_add {n m : Nat} (x : BitVec n) (y : BitVec m) : (x ++ y).toNat = x.toNat * 2 ^ m + y.toNat := by
  rw [BitVec.toNat_append, ← Nat.shiftLeft_add_eq_or_of_lt y.isLt, Nat.shiftLeft_eq]

theorem word_and_full (w : Word) : w &&& 0xFFFFFFFF = w := BitVec.and_allOnes

theorem word_and_low16 (w : Word) : (w &&& 0x0000FFFF).toNat = w.toNat % 2 ^ 16 := by
  rw [BitVec.toNat_and, show (0x0000FFFF : Word).toNat = 2 ^ 16 - 1 from rfl, Nat.and_two_pow_sub_one_eq_mod]

theorem word_and_low4 (w : Word) : (w &&& 0x0000000F).toNat = w.toNat % 2 ^ 4 := by
  rw [BitVec.toNat_and, show (0x0000000F : Word).toNat = 2 ^ 4 - 1 from rfl, Nat.and_two_pow_sub_one_eq_mod]

end Sys2Proof
end

