-- ==== Sys2Proof/Laws/State.lean ====
section
/-! SUPPORT. One lemma per field for each named update of the state, so that no proof unfolds a record update. -/

namespace Sys2Proof.Machine

/-! `State.complete` -/

@[simp] theorem State.complete_cfg (s : State) (e : ErrCode) : (s.complete e).cfg = s.cfg := rfl
@[simp] theorem State.complete_gain (s : State) (e : ErrCode) : (s.complete e).gain = s.gain := rfl
@[simp] theorem State.complete_rmode (s : State) (e : ErrCode) : (s.complete e).rmode = s.rmode := rfl
@[simp] theorem State.complete_pwrap (s : State) (e : ErrCode) : (s.complete e).pwrap = s.pwrap := rfl
@[simp] theorem State.complete_done (s : State) (e : ErrCode) : (s.complete e).done = true := rfl
@[simp] theorem State.complete_rej (s : State) (e : ErrCode) : (s.complete e).rej = s.rej := rfl
@[simp] theorem State.complete_abt (s : State) (e : ErrCode) : (s.complete e).abt = s.abt := rfl
@[simp] theorem State.complete_err (s : State) (e : ErrCode) : (s.complete e).err = e := rfl
@[simp] theorem State.complete_resultInt (s : State) (e : ErrCode) : (s.complete e).resultInt = s.resultInt := rfl
@[simp] theorem State.complete_result (s : State) (e : ErrCode) : (s.complete e).result = s.result := rfl
@[simp] theorem State.complete_offset (s : State) (e : ErrCode) : (s.complete e).offset = s.offset := rfl
@[simp] theorem State.complete_scale (s : State) (e : ErrCode) : (s.complete e).scale = s.scale := rfl
@[simp] theorem State.complete_sample (s : State) (e : ErrCode) : (s.complete e).sample = s.sample := rfl
@[simp] theorem State.complete_scaleStg (s : State) (e : ErrCode) : (s.complete e).scaleStg = s.scaleStg := rfl
@[simp] theorem State.complete_timeoutUs (s : State) (e : ErrCode) : (s.complete e).timeoutUs = s.timeoutUs := rfl
@[simp] theorem State.complete_guardUs (s : State) (e : ErrCode) : (s.complete e).guardUs = s.guardUs := rfl
@[simp] theorem State.complete_settleUs (s : State) (e : ErrCode) : (s.complete e).settleUs = s.settleUs := rfl
@[simp] theorem State.complete_pdholdUs (s : State) (e : ErrCode) : (s.complete e).pdholdUs = s.pdholdUs := rfl
@[simp] theorem State.complete_phase (s : State) (e : ErrCode) : (s.complete e).phase = .idle := rfl
@[simp] theorem State.complete_op (s : State) (e : ErrCode) : (s.complete e).op = s.op := rfl
@[simp] theorem State.complete_times (s : State) (e : ErrCode) : (s.complete e).times = s.times := rfl
@[simp] theorem State.complete_nconv (s : State) (e : ErrCode) : (s.complete e).nconv = s.nconv := rfl
@[simp] theorem State.complete_npulse (s : State) (e : ErrCode) : (s.complete e).npulse = s.npulse := rfl
@[simp] theorem State.complete_bitI (s : State) (e : ErrCode) : (s.complete e).bitI = s.bitI := rfl
@[simp] theorem State.complete_shreg (s : State) (e : ErrCode) : (s.complete e).shreg = s.shreg := rfl
@[simp] theorem State.complete_acc (s : State) (e : ErrCode) : (s.complete e).acc = s.acc := rfl
@[simp] theorem State.complete_cnt (s : State) (e : ErrCode) : (s.complete e).cnt = s.cnt := rfl
@[simp] theorem State.complete_wcnt (s : State) (e : ErrCode) : (s.complete e).wcnt = s.wcnt := rfl
@[simp] theorem State.complete_sinceLast (s : State) (e : ErrCode) : (s.complete e).sinceLast = s.sinceLast := rfl
@[simp] theorem State.complete_hasPrev (s : State) (e : ErrCode) : (s.complete e).hasPrev = s.hasPrev := rfl
@[simp] theorem State.complete_pwr (s : State) (e : ErrCode) : (s.complete e).pwr = s.pwr := rfl
@[simp] theorem State.complete_nsel (s : State) (e : ErrCode) : (s.complete e).nsel = s.nsel := rfl
@[simp] theorem State.complete_sck (s : State) (e : ErrCode) : (s.complete e).sck = s.sck := rfl
@[simp] theorem State.complete_inputs (s : State) (e : ErrCode) : (s.complete e).inputs = s.inputs := rfl
@[simp] theorem State.complete_cycle (s : State) (e : ErrCode) : (s.complete e).cycle = s.cycle := rfl
@[simp] theorem State.complete_rdata (s : State) (e : ErrCode) : (s.complete e).rdata = s.rdata := rfl

/-! `State.discardWrite` -/

@[simp] theorem State.discardWrite_cfg (s : State) : s.discardWrite.cfg = s.cfg := rfl
@[simp] theorem State.discardWrite_gain (s : State) : s.discardWrite.gain = s.gain := rfl
@[simp] theorem State.discardWrite_rmode (s : State) : s.discardWrite.rmode = s.rmode := rfl
@[simp] theorem State.discardWrite_pwrap (s : State) : s.discardWrite.pwrap = s.pwrap := rfl
@[simp] theorem State.discardWrite_done (s : State) : s.discardWrite.done = s.done := rfl
@[simp] theorem State.discardWrite_rej (s : State) : s.discardWrite.rej = true := rfl
@[simp] theorem State.discardWrite_abt (s : State) : s.discardWrite.abt = s.abt := rfl
@[simp] theorem State.discardWrite_err (s : State) : s.discardWrite.err = s.err := rfl
@[simp] theorem State.discardWrite_resultInt (s : State) : s.discardWrite.resultInt = s.resultInt := rfl
@[simp] theorem State.discardWrite_result (s : State) : s.discardWrite.result = s.result := rfl
@[simp] theorem State.discardWrite_offset (s : State) : s.discardWrite.offset = s.offset := rfl
@[simp] theorem State.discardWrite_scale (s : State) : s.discardWrite.scale = s.scale := rfl
@[simp] theorem State.discardWrite_sample (s : State) : s.discardWrite.sample = s.sample := rfl
@[simp] theorem State.discardWrite_scaleStg (s : State) : s.discardWrite.scaleStg = s.scaleStg := rfl
@[simp] theorem State.discardWrite_timeoutUs (s : State) : s.discardWrite.timeoutUs = s.timeoutUs := rfl
@[simp] theorem State.discardWrite_guardUs (s : State) : s.discardWrite.guardUs = s.guardUs := rfl
@[simp] theorem State.discardWrite_settleUs (s : State) : s.discardWrite.settleUs = s.settleUs := rfl
@[simp] theorem State.discardWrite_pdholdUs (s : State) : s.discardWrite.pdholdUs = s.pdholdUs := rfl
@[simp] theorem State.discardWrite_phase (s : State) : s.discardWrite.phase = s.phase := rfl
@[simp] theorem State.discardWrite_op (s : State) : s.discardWrite.op = s.op := rfl
@[simp] theorem State.discardWrite_times (s : State) : s.discardWrite.times = s.times := rfl
@[simp] theorem State.discardWrite_nconv (s : State) : s.discardWrite.nconv = s.nconv := rfl
@[simp] theorem State.discardWrite_npulse (s : State) : s.discardWrite.npulse = s.npulse := rfl
@[simp] theorem State.discardWrite_bitI (s : State) : s.discardWrite.bitI = s.bitI := rfl
@[simp] theorem State.discardWrite_shreg (s : State) : s.discardWrite.shreg = s.shreg := rfl
@[simp] theorem State.discardWrite_acc (s : State) : s.discardWrite.acc = s.acc := rfl
@[simp] theorem State.discardWrite_cnt (s : State) : s.discardWrite.cnt = s.cnt := rfl
@[simp] theorem State.discardWrite_wcnt (s : State) : s.discardWrite.wcnt = s.wcnt := rfl
@[simp] theorem State.discardWrite_sinceLast (s : State) : s.discardWrite.sinceLast = s.sinceLast := rfl
@[simp] theorem State.discardWrite_hasPrev (s : State) : s.discardWrite.hasPrev = s.hasPrev := rfl
@[simp] theorem State.discardWrite_pwr (s : State) : s.discardWrite.pwr = s.pwr := rfl
@[simp] theorem State.discardWrite_nsel (s : State) : s.discardWrite.nsel = s.nsel := rfl
@[simp] theorem State.discardWrite_sck (s : State) : s.discardWrite.sck = s.sck := rfl
@[simp] theorem State.discardWrite_inputs (s : State) : s.discardWrite.inputs = s.inputs := rfl
@[simp] theorem State.discardWrite_cycle (s : State) : s.discardWrite.cycle = s.cycle := rfl
@[simp] theorem State.discardWrite_rdata (s : State) : s.discardWrite.rdata = s.rdata := rfl

/-! `State.clearRejAbt` -/

@[simp] theorem State.clearRejAbt_cfg (s : State) : s.clearRejAbt.cfg = s.cfg := rfl
@[simp] theorem State.clearRejAbt_gain (s : State) : s.clearRejAbt.gain = s.gain := rfl
@[simp] theorem State.clearRejAbt_rmode (s : State) : s.clearRejAbt.rmode = s.rmode := rfl
@[simp] theorem State.clearRejAbt_pwrap (s : State) : s.clearRejAbt.pwrap = s.pwrap := rfl
@[simp] theorem State.clearRejAbt_done (s : State) : s.clearRejAbt.done = s.done := rfl
@[simp] theorem State.clearRejAbt_rej (s : State) : s.clearRejAbt.rej = false := rfl
@[simp] theorem State.clearRejAbt_abt (s : State) : s.clearRejAbt.abt = false := rfl
@[simp] theorem State.clearRejAbt_err (s : State) : s.clearRejAbt.err = s.err := rfl
@[simp] theorem State.clearRejAbt_resultInt (s : State) : s.clearRejAbt.resultInt = s.resultInt := rfl
@[simp] theorem State.clearRejAbt_result (s : State) : s.clearRejAbt.result = s.result := rfl
@[simp] theorem State.clearRejAbt_offset (s : State) : s.clearRejAbt.offset = s.offset := rfl
@[simp] theorem State.clearRejAbt_scale (s : State) : s.clearRejAbt.scale = s.scale := rfl
@[simp] theorem State.clearRejAbt_sample (s : State) : s.clearRejAbt.sample = s.sample := rfl
@[simp] theorem State.clearRejAbt_scaleStg (s : State) : s.clearRejAbt.scaleStg = s.scaleStg := rfl
@[simp] theorem State.clearRejAbt_timeoutUs (s : State) : s.clearRejAbt.timeoutUs = s.timeoutUs := rfl
@[simp] theorem State.clearRejAbt_guardUs (s : State) : s.clearRejAbt.guardUs = s.guardUs := rfl
@[simp] theorem State.clearRejAbt_settleUs (s : State) : s.clearRejAbt.settleUs = s.settleUs := rfl
@[simp] theorem State.clearRejAbt_pdholdUs (s : State) : s.clearRejAbt.pdholdUs = s.pdholdUs := rfl
@[simp] theorem State.clearRejAbt_phase (s : State) : s.clearRejAbt.phase = s.phase := rfl
@[simp] theorem State.clearRejAbt_op (s : State) : s.clearRejAbt.op = s.op := rfl
@[simp] theorem State.clearRejAbt_times (s : State) : s.clearRejAbt.times = s.times := rfl
@[simp] theorem State.clearRejAbt_nconv (s : State) : s.clearRejAbt.nconv = s.nconv := rfl
@[simp] theorem State.clearRejAbt_npulse (s : State) : s.clearRejAbt.npulse = s.npulse := rfl
@[simp] theorem State.clearRejAbt_bitI (s : State) : s.clearRejAbt.bitI = s.bitI := rfl
@[simp] theorem State.clearRejAbt_shreg (s : State) : s.clearRejAbt.shreg = s.shreg := rfl
@[simp] theorem State.clearRejAbt_acc (s : State) : s.clearRejAbt.acc = s.acc := rfl
@[simp] theorem State.clearRejAbt_cnt (s : State) : s.clearRejAbt.cnt = s.cnt := rfl
@[simp] theorem State.clearRejAbt_wcnt (s : State) : s.clearRejAbt.wcnt = s.wcnt := rfl
@[simp] theorem State.clearRejAbt_sinceLast (s : State) : s.clearRejAbt.sinceLast = s.sinceLast := rfl
@[simp] theorem State.clearRejAbt_hasPrev (s : State) : s.clearRejAbt.hasPrev = s.hasPrev := rfl
@[simp] theorem State.clearRejAbt_pwr (s : State) : s.clearRejAbt.pwr = s.pwr := rfl
@[simp] theorem State.clearRejAbt_nsel (s : State) : s.clearRejAbt.nsel = s.nsel := rfl
@[simp] theorem State.clearRejAbt_sck (s : State) : s.clearRejAbt.sck = s.sck := rfl
@[simp] theorem State.clearRejAbt_inputs (s : State) : s.clearRejAbt.inputs = s.inputs := rfl
@[simp] theorem State.clearRejAbt_cycle (s : State) : s.clearRejAbt.cycle = s.cycle := rfl
@[simp] theorem State.clearRejAbt_rdata (s : State) : s.clearRejAbt.rdata = s.rdata := rfl

/-! `State.clearStatus` -/

@[simp] theorem State.clearStatus_cfg (s : State) : s.clearStatus.cfg = s.cfg := rfl
@[simp] theorem State.clearStatus_gain (s : State) : s.clearStatus.gain = s.gain := rfl
@[simp] theorem State.clearStatus_rmode (s : State) : s.clearStatus.rmode = s.rmode := rfl
@[simp] theorem State.clearStatus_pwrap (s : State) : s.clearStatus.pwrap = s.pwrap := rfl
@[simp] theorem State.clearStatus_done (s : State) : s.clearStatus.done = false := rfl
@[simp] theorem State.clearStatus_rej (s : State) : s.clearStatus.rej = false := rfl
@[simp] theorem State.clearStatus_abt (s : State) : s.clearStatus.abt = false := rfl
@[simp] theorem State.clearStatus_err (s : State) : s.clearStatus.err = .none := rfl
@[simp] theorem State.clearStatus_resultInt (s : State) : s.clearStatus.resultInt = s.resultInt := rfl
@[simp] theorem State.clearStatus_result (s : State) : s.clearStatus.result = s.result := rfl
@[simp] theorem State.clearStatus_offset (s : State) : s.clearStatus.offset = s.offset := rfl
@[simp] theorem State.clearStatus_scale (s : State) : s.clearStatus.scale = s.scale := rfl
@[simp] theorem State.clearStatus_sample (s : State) : s.clearStatus.sample = s.sample := rfl
@[simp] theorem State.clearStatus_scaleStg (s : State) : s.clearStatus.scaleStg = s.scaleStg := rfl
@[simp] theorem State.clearStatus_timeoutUs (s : State) : s.clearStatus.timeoutUs = s.timeoutUs := rfl
@[simp] theorem State.clearStatus_guardUs (s : State) : s.clearStatus.guardUs = s.guardUs := rfl
@[simp] theorem State.clearStatus_settleUs (s : State) : s.clearStatus.settleUs = s.settleUs := rfl
@[simp] theorem State.clearStatus_pdholdUs (s : State) : s.clearStatus.pdholdUs = s.pdholdUs := rfl
@[simp] theorem State.clearStatus_phase (s : State) : s.clearStatus.phase = s.phase := rfl
@[simp] theorem State.clearStatus_op (s : State) : s.clearStatus.op = s.op := rfl
@[simp] theorem State.clearStatus_times (s : State) : s.clearStatus.times = s.times := rfl
@[simp] theorem State.clearStatus_nconv (s : State) : s.clearStatus.nconv = s.nconv := rfl
@[simp] theorem State.clearStatus_npulse (s : State) : s.clearStatus.npulse = s.npulse := rfl
@[simp] theorem State.clearStatus_bitI (s : State) : s.clearStatus.bitI = s.bitI := rfl
@[simp] theorem State.clearStatus_shreg (s : State) : s.clearStatus.shreg = s.shreg := rfl
@[simp] theorem State.clearStatus_acc (s : State) : s.clearStatus.acc = s.acc := rfl
@[simp] theorem State.clearStatus_cnt (s : State) : s.clearStatus.cnt = s.cnt := rfl
@[simp] theorem State.clearStatus_wcnt (s : State) : s.clearStatus.wcnt = s.wcnt := rfl
@[simp] theorem State.clearStatus_sinceLast (s : State) : s.clearStatus.sinceLast = s.sinceLast := rfl
@[simp] theorem State.clearStatus_hasPrev (s : State) : s.clearStatus.hasPrev = s.hasPrev := rfl
@[simp] theorem State.clearStatus_pwr (s : State) : s.clearStatus.pwr = s.pwr := rfl
@[simp] theorem State.clearStatus_nsel (s : State) : s.clearStatus.nsel = s.nsel := rfl
@[simp] theorem State.clearStatus_sck (s : State) : s.clearStatus.sck = s.sck := rfl
@[simp] theorem State.clearStatus_inputs (s : State) : s.clearStatus.inputs = s.inputs := rfl
@[simp] theorem State.clearStatus_cycle (s : State) : s.clearStatus.cycle = s.cycle := rfl
@[simp] theorem State.clearStatus_rdata (s : State) : s.clearStatus.rdata = s.rdata := rfl

/-! `State.startPower` -/

@[simp] theorem State.startPower_cfg (s : State) (l : Bool) (p : Phase) : (s.startPower l p).cfg = s.cfg := rfl
@[simp] theorem State.startPower_gain (s : State) (l : Bool) (p : Phase) : (s.startPower l p).gain = s.gain := rfl
@[simp] theorem State.startPower_rmode (s : State) (l : Bool) (p : Phase) : (s.startPower l p).rmode = s.rmode := rfl
@[simp] theorem State.startPower_pwrap (s : State) (l : Bool) (p : Phase) : (s.startPower l p).pwrap = s.pwrap := rfl
@[simp] theorem State.startPower_done (s : State) (l : Bool) (p : Phase) : (s.startPower l p).done = false := rfl
@[simp] theorem State.startPower_rej (s : State) (l : Bool) (p : Phase) : (s.startPower l p).rej = false := rfl
@[simp] theorem State.startPower_abt (s : State) (l : Bool) (p : Phase) : (s.startPower l p).abt = false := rfl
@[simp] theorem State.startPower_err (s : State) (l : Bool) (p : Phase) : (s.startPower l p).err = .none := rfl
@[simp] theorem State.startPower_resultInt (s : State) (l : Bool) (p : Phase) : (s.startPower l p).resultInt = s.resultInt := rfl
@[simp] theorem State.startPower_result (s : State) (l : Bool) (p : Phase) : (s.startPower l p).result = s.result := rfl
@[simp] theorem State.startPower_offset (s : State) (l : Bool) (p : Phase) : (s.startPower l p).offset = s.offset := rfl
@[simp] theorem State.startPower_scale (s : State) (l : Bool) (p : Phase) : (s.startPower l p).scale = s.scale := rfl
@[simp] theorem State.startPower_sample (s : State) (l : Bool) (p : Phase) : (s.startPower l p).sample = s.sample := rfl
@[simp] theorem State.startPower_scaleStg (s : State) (l : Bool) (p : Phase) : (s.startPower l p).scaleStg = s.scaleStg := rfl
@[simp] theorem State.startPower_timeoutUs (s : State) (l : Bool) (p : Phase) : (s.startPower l p).timeoutUs = s.timeoutUs := rfl
@[simp] theorem State.startPower_guardUs (s : State) (l : Bool) (p : Phase) : (s.startPower l p).guardUs = s.guardUs := rfl
@[simp] theorem State.startPower_settleUs (s : State) (l : Bool) (p : Phase) : (s.startPower l p).settleUs = s.settleUs := rfl
@[simp] theorem State.startPower_pdholdUs (s : State) (l : Bool) (p : Phase) : (s.startPower l p).pdholdUs = s.pdholdUs := rfl
@[simp] theorem State.startPower_phase (s : State) (l : Bool) (p : Phase) : (s.startPower l p).phase = p := rfl
@[simp] theorem State.startPower_op (s : State) (l : Bool) (p : Phase) : (s.startPower l p).op = s.op := rfl
@[simp] theorem State.startPower_times (s : State) (l : Bool) (p : Phase) : (s.startPower l p).times = s.times := rfl
@[simp] theorem State.startPower_nconv (s : State) (l : Bool) (p : Phase) : (s.startPower l p).nconv = s.nconv := rfl
@[simp] theorem State.startPower_npulse (s : State) (l : Bool) (p : Phase) : (s.startPower l p).npulse = s.npulse := rfl
@[simp] theorem State.startPower_bitI (s : State) (l : Bool) (p : Phase) : (s.startPower l p).bitI = s.bitI := rfl
@[simp] theorem State.startPower_shreg (s : State) (l : Bool) (p : Phase) : (s.startPower l p).shreg = s.shreg := rfl
@[simp] theorem State.startPower_acc (s : State) (l : Bool) (p : Phase) : (s.startPower l p).acc = s.acc := rfl
@[simp] theorem State.startPower_cnt (s : State) (l : Bool) (p : Phase) : (s.startPower l p).cnt = 0 := rfl
@[simp] theorem State.startPower_wcnt (s : State) (l : Bool) (p : Phase) : (s.startPower l p).wcnt = s.wcnt := rfl
@[simp] theorem State.startPower_sinceLast (s : State) (l : Bool) (p : Phase) : (s.startPower l p).sinceLast = s.sinceLast := rfl
@[simp] theorem State.startPower_hasPrev (s : State) (l : Bool) (p : Phase) : (s.startPower l p).hasPrev = s.hasPrev := rfl
@[simp] theorem State.startPower_pwr (s : State) (l : Bool) (p : Phase) : (s.startPower l p).pwr = s.pwr := rfl
@[simp] theorem State.startPower_nsel (s : State) (l : Bool) (p : Phase) : (s.startPower l p).nsel = s.nsel := rfl
@[simp] theorem State.startPower_sck (s : State) (l : Bool) (p : Phase) : (s.startPower l p).sck = l := rfl
@[simp] theorem State.startPower_inputs (s : State) (l : Bool) (p : Phase) : (s.startPower l p).inputs = s.inputs := rfl
@[simp] theorem State.startPower_cycle (s : State) (l : Bool) (p : Phase) : (s.startPower l p).cycle = s.cycle := rfl
@[simp] theorem State.startPower_rdata (s : State) (l : Bool) (p : Phase) : (s.startPower l p).rdata = s.rdata := rfl

/-! `State.enterRecovery` -/

@[simp] theorem State.enterRecovery_cfg (s : State) : s.enterRecovery.cfg = s.cfg := rfl
@[simp] theorem State.enterRecovery_gain (s : State) : s.enterRecovery.gain = s.gain := rfl
@[simp] theorem State.enterRecovery_rmode (s : State) : s.enterRecovery.rmode = s.rmode := rfl
@[simp] theorem State.enterRecovery_pwrap (s : State) : s.enterRecovery.pwrap = s.pwrap := rfl
@[simp] theorem State.enterRecovery_done (s : State) : s.enterRecovery.done = s.done := rfl
@[simp] theorem State.enterRecovery_rej (s : State) : s.enterRecovery.rej = s.rej := rfl
@[simp] theorem State.enterRecovery_abt (s : State) : s.enterRecovery.abt = s.abt := rfl
@[simp] theorem State.enterRecovery_err (s : State) : s.enterRecovery.err = s.err := rfl
@[simp] theorem State.enterRecovery_resultInt (s : State) : s.enterRecovery.resultInt = s.resultInt := rfl
@[simp] theorem State.enterRecovery_result (s : State) : s.enterRecovery.result = s.result := rfl
@[simp] theorem State.enterRecovery_offset (s : State) : s.enterRecovery.offset = s.offset := rfl
@[simp] theorem State.enterRecovery_scale (s : State) : s.enterRecovery.scale = s.scale := rfl
@[simp] theorem State.enterRecovery_sample (s : State) : s.enterRecovery.sample = s.sample := rfl
@[simp] theorem State.enterRecovery_scaleStg (s : State) : s.enterRecovery.scaleStg = s.scaleStg := rfl
@[simp] theorem State.enterRecovery_timeoutUs (s : State) : s.enterRecovery.timeoutUs = s.timeoutUs := rfl
@[simp] theorem State.enterRecovery_guardUs (s : State) : s.enterRecovery.guardUs = s.guardUs := rfl
@[simp] theorem State.enterRecovery_settleUs (s : State) : s.enterRecovery.settleUs = s.settleUs := rfl
@[simp] theorem State.enterRecovery_pdholdUs (s : State) : s.enterRecovery.pdholdUs = s.pdholdUs := rfl
@[simp] theorem State.enterRecovery_phase (s : State) : s.enterRecovery.phase = .recoverHi := rfl
@[simp] theorem State.enterRecovery_op (s : State) : s.enterRecovery.op = s.op := rfl
@[simp] theorem State.enterRecovery_times (s : State) : s.enterRecovery.times = s.times := rfl
@[simp] theorem State.enterRecovery_nconv (s : State) : s.enterRecovery.nconv = s.nconv := rfl
@[simp] theorem State.enterRecovery_npulse (s : State) : s.enterRecovery.npulse = s.npulse := rfl
@[simp] theorem State.enterRecovery_bitI (s : State) : s.enterRecovery.bitI = s.bitI := rfl
@[simp] theorem State.enterRecovery_shreg (s : State) : s.enterRecovery.shreg = s.shreg := rfl
@[simp] theorem State.enterRecovery_acc (s : State) : s.enterRecovery.acc = s.acc := rfl
@[simp] theorem State.enterRecovery_cnt (s : State) : s.enterRecovery.cnt = 0 := rfl
@[simp] theorem State.enterRecovery_wcnt (s : State) : s.enterRecovery.wcnt = s.wcnt := rfl
@[simp] theorem State.enterRecovery_sinceLast (s : State) : s.enterRecovery.sinceLast = s.sinceLast := rfl
@[simp] theorem State.enterRecovery_hasPrev (s : State) : s.enterRecovery.hasPrev = s.hasPrev := rfl
@[simp] theorem State.enterRecovery_pwr (s : State) : s.enterRecovery.pwr = s.pwr := rfl
@[simp] theorem State.enterRecovery_nsel (s : State) : s.enterRecovery.nsel = s.nsel := rfl
@[simp] theorem State.enterRecovery_sck (s : State) : s.enterRecovery.sck = true := rfl
@[simp] theorem State.enterRecovery_inputs (s : State) : s.enterRecovery.inputs = s.inputs := rfl
@[simp] theorem State.enterRecovery_cycle (s : State) : s.enterRecovery.cycle = s.cycle := rfl
@[simp] theorem State.enterRecovery_rdata (s : State) : s.enterRecovery.rdata = s.rdata := rfl

/-! `State.convBookkeeping` -/

@[simp] theorem State.convBookkeeping_cfg (s : State) : s.convBookkeeping.cfg = s.cfg := rfl
@[simp] theorem State.convBookkeeping_gain (s : State) : s.convBookkeeping.gain = s.gain := rfl
@[simp] theorem State.convBookkeeping_rmode (s : State) : s.convBookkeeping.rmode = s.rmode := rfl
@[simp] theorem State.convBookkeeping_pwrap (s : State) : s.convBookkeeping.pwrap = s.pwrap := rfl
@[simp] theorem State.convBookkeeping_done (s : State) : s.convBookkeeping.done = s.done := rfl
@[simp] theorem State.convBookkeeping_rej (s : State) : s.convBookkeeping.rej = s.rej := rfl
@[simp] theorem State.convBookkeeping_abt (s : State) : s.convBookkeeping.abt = s.abt := rfl
@[simp] theorem State.convBookkeeping_err (s : State) : s.convBookkeeping.err = s.err := rfl
@[simp] theorem State.convBookkeeping_resultInt (s : State) : s.convBookkeeping.resultInt = s.resultInt := rfl
@[simp] theorem State.convBookkeeping_result (s : State) : s.convBookkeeping.result = s.result := rfl
@[simp] theorem State.convBookkeeping_offset (s : State) : s.convBookkeeping.offset = s.offset := rfl
@[simp] theorem State.convBookkeeping_scale (s : State) : s.convBookkeeping.scale = s.scale := rfl
@[simp] theorem State.convBookkeeping_sample (s : State) : s.convBookkeeping.sample = BitVec.ofInt 32 (decode24 s.shreg) := rfl
@[simp] theorem State.convBookkeeping_scaleStg (s : State) : s.convBookkeeping.scaleStg = s.scaleStg := rfl
@[simp] theorem State.convBookkeeping_timeoutUs (s : State) : s.convBookkeeping.timeoutUs = s.timeoutUs := rfl
@[simp] theorem State.convBookkeeping_guardUs (s : State) : s.convBookkeeping.guardUs = s.guardUs := rfl
@[simp] theorem State.convBookkeeping_settleUs (s : State) : s.convBookkeeping.settleUs = s.settleUs := rfl
@[simp] theorem State.convBookkeeping_pdholdUs (s : State) : s.convBookkeeping.pdholdUs = s.pdholdUs := rfl
@[simp] theorem State.convBookkeeping_phase (s : State) : s.convBookkeeping.phase = s.phase := rfl
@[simp] theorem State.convBookkeeping_op (s : State) : s.convBookkeeping.op = s.op := rfl
@[simp] theorem State.convBookkeeping_times (s : State) : s.convBookkeeping.times = s.times := rfl
@[simp] theorem State.convBookkeeping_nconv (s : State) : s.convBookkeeping.nconv = s.nconv + 1 := rfl
@[simp] theorem State.convBookkeeping_npulse (s : State) : s.convBookkeeping.npulse = s.npulse := rfl
@[simp] theorem State.convBookkeeping_bitI (s : State) : s.convBookkeeping.bitI = s.bitI := rfl
@[simp] theorem State.convBookkeeping_shreg (s : State) : s.convBookkeeping.shreg = s.shreg := rfl
@[simp] theorem State.convBookkeeping_acc (s : State) : s.convBookkeeping.acc = BitVec.ofInt 48 (s.acc.toInt + decode24 s.shreg) := rfl
@[simp] theorem State.convBookkeeping_cnt (s : State) : s.convBookkeeping.cnt = s.cnt := rfl
@[simp] theorem State.convBookkeeping_wcnt (s : State) : s.convBookkeeping.wcnt = s.wcnt := rfl
@[simp] theorem State.convBookkeeping_sinceLast (s : State) : s.convBookkeeping.sinceLast = s.sinceLast := rfl
@[simp] theorem State.convBookkeeping_hasPrev (s : State) : s.convBookkeeping.hasPrev = true := rfl
@[simp] theorem State.convBookkeeping_pwr (s : State) : s.convBookkeeping.pwr = s.pwr := rfl
@[simp] theorem State.convBookkeeping_nsel (s : State) : s.convBookkeeping.nsel = s.npulse := rfl
@[simp] theorem State.convBookkeeping_sck (s : State) : s.convBookkeeping.sck = s.sck := rfl
@[simp] theorem State.convBookkeeping_inputs (s : State) : s.convBookkeeping.inputs = s.inputs := rfl
@[simp] theorem State.convBookkeeping_cycle (s : State) : s.convBookkeeping.cycle = s.cycle := rfl
@[simp] theorem State.convBookkeeping_rdata (s : State) : s.convBookkeeping.rdata = s.rdata := rfl

/-! `State.tickSinceLast` -/

@[simp] theorem State.tickSinceLast_cfg (s : State) (b : Bool) : (s.tickSinceLast b).cfg = s.cfg := rfl
@[simp] theorem State.tickSinceLast_gain (s : State) (b : Bool) : (s.tickSinceLast b).gain = s.gain := rfl
@[simp] theorem State.tickSinceLast_rmode (s : State) (b : Bool) : (s.tickSinceLast b).rmode = s.rmode := rfl
@[simp] theorem State.tickSinceLast_pwrap (s : State) (b : Bool) : (s.tickSinceLast b).pwrap = s.pwrap := rfl
@[simp] theorem State.tickSinceLast_done (s : State) (b : Bool) : (s.tickSinceLast b).done = s.done := rfl
@[simp] theorem State.tickSinceLast_rej (s : State) (b : Bool) : (s.tickSinceLast b).rej = s.rej := rfl
@[simp] theorem State.tickSinceLast_abt (s : State) (b : Bool) : (s.tickSinceLast b).abt = s.abt := rfl
@[simp] theorem State.tickSinceLast_err (s : State) (b : Bool) : (s.tickSinceLast b).err = s.err := rfl
@[simp] theorem State.tickSinceLast_resultInt (s : State) (b : Bool) : (s.tickSinceLast b).resultInt = s.resultInt := rfl
@[simp] theorem State.tickSinceLast_result (s : State) (b : Bool) : (s.tickSinceLast b).result = s.result := rfl
@[simp] theorem State.tickSinceLast_offset (s : State) (b : Bool) : (s.tickSinceLast b).offset = s.offset := rfl
@[simp] theorem State.tickSinceLast_scale (s : State) (b : Bool) : (s.tickSinceLast b).scale = s.scale := rfl
@[simp] theorem State.tickSinceLast_sample (s : State) (b : Bool) : (s.tickSinceLast b).sample = s.sample := rfl
@[simp] theorem State.tickSinceLast_scaleStg (s : State) (b : Bool) : (s.tickSinceLast b).scaleStg = s.scaleStg := rfl
@[simp] theorem State.tickSinceLast_timeoutUs (s : State) (b : Bool) : (s.tickSinceLast b).timeoutUs = s.timeoutUs := rfl
@[simp] theorem State.tickSinceLast_guardUs (s : State) (b : Bool) : (s.tickSinceLast b).guardUs = s.guardUs := rfl
@[simp] theorem State.tickSinceLast_settleUs (s : State) (b : Bool) : (s.tickSinceLast b).settleUs = s.settleUs := rfl
@[simp] theorem State.tickSinceLast_pdholdUs (s : State) (b : Bool) : (s.tickSinceLast b).pdholdUs = s.pdholdUs := rfl
@[simp] theorem State.tickSinceLast_phase (s : State) (b : Bool) : (s.tickSinceLast b).phase = s.phase := rfl
@[simp] theorem State.tickSinceLast_op (s : State) (b : Bool) : (s.tickSinceLast b).op = s.op := rfl
@[simp] theorem State.tickSinceLast_times (s : State) (b : Bool) : (s.tickSinceLast b).times = s.times := rfl
@[simp] theorem State.tickSinceLast_nconv (s : State) (b : Bool) : (s.tickSinceLast b).nconv = s.nconv := rfl
@[simp] theorem State.tickSinceLast_npulse (s : State) (b : Bool) : (s.tickSinceLast b).npulse = s.npulse := rfl
@[simp] theorem State.tickSinceLast_bitI (s : State) (b : Bool) : (s.tickSinceLast b).bitI = s.bitI := rfl
@[simp] theorem State.tickSinceLast_shreg (s : State) (b : Bool) : (s.tickSinceLast b).shreg = s.shreg := rfl
@[simp] theorem State.tickSinceLast_acc (s : State) (b : Bool) : (s.tickSinceLast b).acc = s.acc := rfl
@[simp] theorem State.tickSinceLast_cnt (s : State) (b : Bool) : (s.tickSinceLast b).cnt = s.cnt := rfl
@[simp] theorem State.tickSinceLast_wcnt (s : State) (b : Bool) : (s.tickSinceLast b).wcnt = s.wcnt := rfl
@[simp] theorem State.tickSinceLast_sinceLast (s : State) (b : Bool) : (s.tickSinceLast b).sinceLast = if b then 0 else BitVec.ofNat 64 (min (s.sinceLast.toNat + 1) (2 ^ 64 - 1)) := rfl
@[simp] theorem State.tickSinceLast_hasPrev (s : State) (b : Bool) : (s.tickSinceLast b).hasPrev = s.hasPrev := rfl
@[simp] theorem State.tickSinceLast_pwr (s : State) (b : Bool) : (s.tickSinceLast b).pwr = s.pwr := rfl
@[simp] theorem State.tickSinceLast_nsel (s : State) (b : Bool) : (s.tickSinceLast b).nsel = s.nsel := rfl
@[simp] theorem State.tickSinceLast_sck (s : State) (b : Bool) : (s.tickSinceLast b).sck = s.sck := rfl
@[simp] theorem State.tickSinceLast_inputs (s : State) (b : Bool) : (s.tickSinceLast b).inputs = s.inputs := rfl
@[simp] theorem State.tickSinceLast_cycle (s : State) (b : Bool) : (s.tickSinceLast b).cycle = s.cycle := rfl
@[simp] theorem State.tickSinceLast_rdata (s : State) (b : Bool) : (s.tickSinceLast b).rdata = s.rdata := rfl

/-! `State.advance` -/

@[simp] theorem State.advance_cfg (s : State) (inp : CycleInput) (t : State) : (s.advance inp t).cfg = t.cfg := rfl
@[simp] theorem State.advance_gain (s : State) (inp : CycleInput) (t : State) : (s.advance inp t).gain = t.gain := rfl
@[simp] theorem State.advance_rmode (s : State) (inp : CycleInput) (t : State) : (s.advance inp t).rmode = t.rmode := rfl
@[simp] theorem State.advance_pwrap (s : State) (inp : CycleInput) (t : State) : (s.advance inp t).pwrap = t.pwrap := rfl
@[simp] theorem State.advance_done (s : State) (inp : CycleInput) (t : State) : (s.advance inp t).done = t.done := rfl
@[simp] theorem State.advance_rej (s : State) (inp : CycleInput) (t : State) : (s.advance inp t).rej = t.rej := rfl
@[simp] theorem State.advance_abt (s : State) (inp : CycleInput) (t : State) : (s.advance inp t).abt = t.abt := rfl
@[simp] theorem State.advance_err (s : State) (inp : CycleInput) (t : State) : (s.advance inp t).err = t.err := rfl
@[simp] theorem State.advance_resultInt (s : State) (inp : CycleInput) (t : State) : (s.advance inp t).resultInt = t.resultInt := rfl
@[simp] theorem State.advance_result (s : State) (inp : CycleInput) (t : State) : (s.advance inp t).result = t.result := rfl
@[simp] theorem State.advance_offset (s : State) (inp : CycleInput) (t : State) : (s.advance inp t).offset = t.offset := rfl
@[simp] theorem State.advance_scale (s : State) (inp : CycleInput) (t : State) : (s.advance inp t).scale = t.scale := rfl
@[simp] theorem State.advance_sample (s : State) (inp : CycleInput) (t : State) : (s.advance inp t).sample = t.sample := rfl
@[simp] theorem State.advance_scaleStg (s : State) (inp : CycleInput) (t : State) : (s.advance inp t).scaleStg = t.scaleStg := rfl
@[simp] theorem State.advance_timeoutUs (s : State) (inp : CycleInput) (t : State) : (s.advance inp t).timeoutUs = t.timeoutUs := rfl
@[simp] theorem State.advance_guardUs (s : State) (inp : CycleInput) (t : State) : (s.advance inp t).guardUs = t.guardUs := rfl
@[simp] theorem State.advance_settleUs (s : State) (inp : CycleInput) (t : State) : (s.advance inp t).settleUs = t.settleUs := rfl
@[simp] theorem State.advance_pdholdUs (s : State) (inp : CycleInput) (t : State) : (s.advance inp t).pdholdUs = t.pdholdUs := rfl
@[simp] theorem State.advance_phase (s : State) (inp : CycleInput) (t : State) : (s.advance inp t).phase = t.phase := rfl
@[simp] theorem State.advance_op (s : State) (inp : CycleInput) (t : State) : (s.advance inp t).op = t.op := rfl
@[simp] theorem State.advance_times (s : State) (inp : CycleInput) (t : State) : (s.advance inp t).times = t.times := rfl
@[simp] theorem State.advance_nconv (s : State) (inp : CycleInput) (t : State) : (s.advance inp t).nconv = t.nconv := rfl
@[simp] theorem State.advance_npulse (s : State) (inp : CycleInput) (t : State) : (s.advance inp t).npulse = t.npulse := rfl
@[simp] theorem State.advance_bitI (s : State) (inp : CycleInput) (t : State) : (s.advance inp t).bitI = t.bitI := rfl
@[simp] theorem State.advance_shreg (s : State) (inp : CycleInput) (t : State) : (s.advance inp t).shreg = t.shreg := rfl
@[simp] theorem State.advance_acc (s : State) (inp : CycleInput) (t : State) : (s.advance inp t).acc = t.acc := rfl
@[simp] theorem State.advance_cnt (s : State) (inp : CycleInput) (t : State) : (s.advance inp t).cnt = t.cnt := rfl
@[simp] theorem State.advance_wcnt (s : State) (inp : CycleInput) (t : State) : (s.advance inp t).wcnt = t.wcnt := rfl
@[simp] theorem State.advance_sinceLast (s : State) (inp : CycleInput) (t : State) : (s.advance inp t).sinceLast = t.sinceLast := rfl
@[simp] theorem State.advance_hasPrev (s : State) (inp : CycleInput) (t : State) : (s.advance inp t).hasPrev = t.hasPrev := rfl
@[simp] theorem State.advance_pwr (s : State) (inp : CycleInput) (t : State) : (s.advance inp t).pwr = t.pwr := rfl
@[simp] theorem State.advance_nsel (s : State) (inp : CycleInput) (t : State) : (s.advance inp t).nsel = t.nsel := rfl
@[simp] theorem State.advance_sck (s : State) (inp : CycleInput) (t : State) : (s.advance inp t).sck = t.sck := rfl
@[simp] theorem State.advance_inputs (s : State) (inp : CycleInput) (t : State) : (s.advance inp t).inputs = s.inputs.tail := rfl
@[simp] theorem State.advance_cycle (s : State) (inp : CycleInput) (t : State) : (s.advance inp t).cycle = s.cycle + 1 := rfl
@[simp] theorem State.advance_rdata (s : State) (inp : CycleInput) (t : State) : (s.advance inp t).rdata = if inp.rst then none else s.readData inp := rfl

/-! `State.beginConv` -/

@[simp] theorem State.beginConv_cfg (s : State) : s.beginConv.cfg = s.cfg := by
  unfold State.beginConv; split <;> simp_all
@[simp] theorem State.beginConv_gain (s : State) : s.beginConv.gain = s.gain := by
  unfold State.beginConv; split <;> simp_all
@[simp] theorem State.beginConv_rmode (s : State) : s.beginConv.rmode = s.rmode := by
  unfold State.beginConv; split <;> simp_all
@[simp] theorem State.beginConv_pwrap (s : State) : s.beginConv.pwrap = s.pwrap := by
  unfold State.beginConv; split <;> simp_all
@[simp] theorem State.beginConv_done (s : State) : s.beginConv.done = s.done := by
  unfold State.beginConv; split <;> simp_all
@[simp] theorem State.beginConv_rej (s : State) : s.beginConv.rej = s.rej := by
  unfold State.beginConv; split <;> simp_all
@[simp] theorem State.beginConv_abt (s : State) : s.beginConv.abt = s.abt := by
  unfold State.beginConv; split <;> simp_all
@[simp] theorem State.beginConv_err (s : State) : s.beginConv.err = s.err := by
  unfold State.beginConv; split <;> simp_all
@[simp] theorem State.beginConv_resultInt (s : State) : s.beginConv.resultInt = s.resultInt := by
  unfold State.beginConv; split <;> simp_all
@[simp] theorem State.beginConv_result (s : State) : s.beginConv.result = s.result := by
  unfold State.beginConv; split <;> simp_all
@[simp] theorem State.beginConv_offset (s : State) : s.beginConv.offset = s.offset := by
  unfold State.beginConv; split <;> simp_all
@[simp] theorem State.beginConv_scale (s : State) : s.beginConv.scale = s.scale := by
  unfold State.beginConv; split <;> simp_all
@[simp] theorem State.beginConv_sample (s : State) : s.beginConv.sample = s.sample := by
  unfold State.beginConv; split <;> simp_all
@[simp] theorem State.beginConv_scaleStg (s : State) : s.beginConv.scaleStg = s.scaleStg := by
  unfold State.beginConv; split <;> simp_all
@[simp] theorem State.beginConv_timeoutUs (s : State) : s.beginConv.timeoutUs = s.timeoutUs := by
  unfold State.beginConv; split <;> simp_all
@[simp] theorem State.beginConv_guardUs (s : State) : s.beginConv.guardUs = s.guardUs := by
  unfold State.beginConv; split <;> simp_all
@[simp] theorem State.beginConv_settleUs (s : State) : s.beginConv.settleUs = s.settleUs := by
  unfold State.beginConv; split <;> simp_all
@[simp] theorem State.beginConv_pdholdUs (s : State) : s.beginConv.pdholdUs = s.pdholdUs := by
  unfold State.beginConv; split <;> simp_all
@[simp] theorem State.beginConv_phase (s : State) : s.beginConv.phase = if s.pwrap then .wrapHi else .waitRdy := by
  unfold State.beginConv; split <;> simp_all
@[simp] theorem State.beginConv_op (s : State) : s.beginConv.op = s.op := by
  unfold State.beginConv; split <;> simp_all
@[simp] theorem State.beginConv_times (s : State) : s.beginConv.times = s.times := by
  unfold State.beginConv; split <;> simp_all
@[simp] theorem State.beginConv_nconv (s : State) : s.beginConv.nconv = s.nconv := by
  unfold State.beginConv; split <;> simp_all
@[simp] theorem State.beginConv_npulse (s : State) : s.beginConv.npulse = s.npulse := by
  unfold State.beginConv; split <;> simp_all
@[simp] theorem State.beginConv_bitI (s : State) : s.beginConv.bitI = s.bitI := by
  unfold State.beginConv; split <;> simp_all
@[simp] theorem State.beginConv_shreg (s : State) : s.beginConv.shreg = s.shreg := by
  unfold State.beginConv; split <;> simp_all
@[simp] theorem State.beginConv_acc (s : State) : s.beginConv.acc = s.acc := by
  unfold State.beginConv; split <;> simp_all
@[simp] theorem State.beginConv_cnt (s : State) : s.beginConv.cnt = if s.pwrap then 0 else s.cnt := by
  unfold State.beginConv; split <;> simp_all
@[simp] theorem State.beginConv_wcnt (s : State) : s.beginConv.wcnt = if s.pwrap then s.wcnt else 0 := by
  unfold State.beginConv; split <;> simp_all
@[simp] theorem State.beginConv_sinceLast (s : State) : s.beginConv.sinceLast = s.sinceLast := by
  unfold State.beginConv; split <;> simp_all
@[simp] theorem State.beginConv_hasPrev (s : State) : s.beginConv.hasPrev = s.hasPrev := by
  unfold State.beginConv; split <;> simp_all
@[simp] theorem State.beginConv_pwr (s : State) : s.beginConv.pwr = s.pwr := by
  unfold State.beginConv; split <;> simp_all
@[simp] theorem State.beginConv_nsel (s : State) : s.beginConv.nsel = s.nsel := by
  unfold State.beginConv; split <;> simp_all
@[simp] theorem State.beginConv_sck (s : State) : s.beginConv.sck = s.pwrap := by
  unfold State.beginConv; split <;> simp_all
@[simp] theorem State.beginConv_inputs (s : State) : s.beginConv.inputs = s.inputs := by
  unfold State.beginConv; split <;> simp_all
@[simp] theorem State.beginConv_cycle (s : State) : s.beginConv.cycle = s.cycle := by
  unfold State.beginConv; split <;> simp_all
@[simp] theorem State.beginConv_rdata (s : State) : s.beginConv.rdata = s.rdata := by
  unfold State.beginConv; split <;> simp_all

/-! `State.sampleBit` -/

@[simp] theorem State.sampleBit_cfg (s : State) (b : Bool) : (s.sampleBit b).cfg = s.cfg := by
  unfold State.sampleBit; split <;> rfl
@[simp] theorem State.sampleBit_gain (s : State) (b : Bool) : (s.sampleBit b).gain = s.gain := by
  unfold State.sampleBit; split <;> rfl
@[simp] theorem State.sampleBit_rmode (s : State) (b : Bool) : (s.sampleBit b).rmode = s.rmode := by
  unfold State.sampleBit; split <;> rfl
@[simp] theorem State.sampleBit_pwrap (s : State) (b : Bool) : (s.sampleBit b).pwrap = s.pwrap := by
  unfold State.sampleBit; split <;> rfl
@[simp] theorem State.sampleBit_done (s : State) (b : Bool) : (s.sampleBit b).done = s.done := by
  unfold State.sampleBit; split <;> rfl
@[simp] theorem State.sampleBit_rej (s : State) (b : Bool) : (s.sampleBit b).rej = s.rej := by
  unfold State.sampleBit; split <;> rfl
@[simp] theorem State.sampleBit_abt (s : State) (b : Bool) : (s.sampleBit b).abt = s.abt := by
  unfold State.sampleBit; split <;> rfl
@[simp] theorem State.sampleBit_err (s : State) (b : Bool) : (s.sampleBit b).err = s.err := by
  unfold State.sampleBit; split <;> rfl
@[simp] theorem State.sampleBit_resultInt (s : State) (b : Bool) : (s.sampleBit b).resultInt = s.resultInt := by
  unfold State.sampleBit; split <;> rfl
@[simp] theorem State.sampleBit_result (s : State) (b : Bool) : (s.sampleBit b).result = s.result := by
  unfold State.sampleBit; split <;> rfl
@[simp] theorem State.sampleBit_offset (s : State) (b : Bool) : (s.sampleBit b).offset = s.offset := by
  unfold State.sampleBit; split <;> rfl
@[simp] theorem State.sampleBit_scale (s : State) (b : Bool) : (s.sampleBit b).scale = s.scale := by
  unfold State.sampleBit; split <;> rfl
@[simp] theorem State.sampleBit_sample (s : State) (b : Bool) : (s.sampleBit b).sample = s.sample := by
  unfold State.sampleBit; split <;> rfl
@[simp] theorem State.sampleBit_scaleStg (s : State) (b : Bool) : (s.sampleBit b).scaleStg = s.scaleStg := by
  unfold State.sampleBit; split <;> rfl
@[simp] theorem State.sampleBit_timeoutUs (s : State) (b : Bool) : (s.sampleBit b).timeoutUs = s.timeoutUs := by
  unfold State.sampleBit; split <;> rfl
@[simp] theorem State.sampleBit_guardUs (s : State) (b : Bool) : (s.sampleBit b).guardUs = s.guardUs := by
  unfold State.sampleBit; split <;> rfl
@[simp] theorem State.sampleBit_settleUs (s : State) (b : Bool) : (s.sampleBit b).settleUs = s.settleUs := by
  unfold State.sampleBit; split <;> rfl
@[simp] theorem State.sampleBit_pdholdUs (s : State) (b : Bool) : (s.sampleBit b).pdholdUs = s.pdholdUs := by
  unfold State.sampleBit; split <;> rfl
@[simp] theorem State.sampleBit_phase (s : State) (b : Bool) : (s.sampleBit b).phase = s.phase := by
  unfold State.sampleBit; split <;> rfl
@[simp] theorem State.sampleBit_op (s : State) (b : Bool) : (s.sampleBit b).op = s.op := by
  unfold State.sampleBit; split <;> rfl
@[simp] theorem State.sampleBit_times (s : State) (b : Bool) : (s.sampleBit b).times = s.times := by
  unfold State.sampleBit; split <;> rfl
@[simp] theorem State.sampleBit_nconv (s : State) (b : Bool) : (s.sampleBit b).nconv = s.nconv := by
  unfold State.sampleBit; split <;> rfl
@[simp] theorem State.sampleBit_npulse (s : State) (b : Bool) : (s.sampleBit b).npulse = s.npulse := by
  unfold State.sampleBit; split <;> rfl
@[simp] theorem State.sampleBit_bitI (s : State) (b : Bool) : (s.sampleBit b).bitI = s.bitI := by
  unfold State.sampleBit; split <;> rfl
@[simp] theorem State.sampleBit_shreg (s : State) (b : Bool) : (s.sampleBit b).shreg = if s.bitI.toNat < 24 then s.shreg.extractLsb' 0 23 ++ BitVec.ofBool b else s.shreg := by
  unfold State.sampleBit; split <;> rfl
@[simp] theorem State.sampleBit_acc (s : State) (b : Bool) : (s.sampleBit b).acc = s.acc := by
  unfold State.sampleBit; split <;> rfl
@[simp] theorem State.sampleBit_cnt (s : State) (b : Bool) : (s.sampleBit b).cnt = s.cnt := by
  unfold State.sampleBit; split <;> rfl
@[simp] theorem State.sampleBit_wcnt (s : State) (b : Bool) : (s.sampleBit b).wcnt = s.wcnt := by
  unfold State.sampleBit; split <;> rfl
@[simp] theorem State.sampleBit_sinceLast (s : State) (b : Bool) : (s.sampleBit b).sinceLast = s.sinceLast := by
  unfold State.sampleBit; split <;> rfl
@[simp] theorem State.sampleBit_hasPrev (s : State) (b : Bool) : (s.sampleBit b).hasPrev = s.hasPrev := by
  unfold State.sampleBit; split <;> rfl
@[simp] theorem State.sampleBit_pwr (s : State) (b : Bool) : (s.sampleBit b).pwr = s.pwr := by
  unfold State.sampleBit; split <;> rfl
@[simp] theorem State.sampleBit_nsel (s : State) (b : Bool) : (s.sampleBit b).nsel = s.nsel := by
  unfold State.sampleBit; split <;> rfl
@[simp] theorem State.sampleBit_sck (s : State) (b : Bool) : (s.sampleBit b).sck = s.sck := by
  unfold State.sampleBit; split <;> rfl
@[simp] theorem State.sampleBit_inputs (s : State) (b : Bool) : (s.sampleBit b).inputs = s.inputs := by
  unfold State.sampleBit; split <;> rfl
@[simp] theorem State.sampleBit_cycle (s : State) (b : Bool) : (s.sampleBit b).cycle = s.cycle := by
  unfold State.sampleBit; split <;> rfl
@[simp] theorem State.sampleBit_rdata (s : State) (b : Bool) : (s.sampleBit b).rdata = s.rdata := by
  unfold State.sampleBit; split <;> rfl

/-! `State.marked` -/

/-- The state with REJ, SCALE_STG and the listed inputs replaced: what no phase step reads or writes, and, but for the inputs, what a
host write can leave while busy. -/
def State.marked (s : State) (r : Bool) (k : DWord) (l : List CycleInput) : State :=
  { s with rej := r, scaleStg := k, inputs := l }

@[simp] theorem State.marked_cfg (s : State) (r : Bool) (k : DWord) (l : List CycleInput) : (s.marked r k l).cfg = s.cfg := rfl
@[simp] theorem State.marked_gain (s : State) (r : Bool) (k : DWord) (l : List CycleInput) : (s.marked r k l).gain = s.gain := rfl
@[simp] theorem State.marked_rmode (s : State) (r : Bool) (k : DWord) (l : List CycleInput) : (s.marked r k l).rmode = s.rmode := rfl
@[simp] theorem State.marked_pwrap (s : State) (r : Bool) (k : DWord) (l : List CycleInput) : (s.marked r k l).pwrap = s.pwrap := rfl
@[simp] theorem State.marked_done (s : State) (r : Bool) (k : DWord) (l : List CycleInput) : (s.marked r k l).done = s.done := rfl
@[simp] theorem State.marked_rej (s : State) (r : Bool) (k : DWord) (l : List CycleInput) : (s.marked r k l).rej = r := rfl
@[simp] theorem State.marked_abt (s : State) (r : Bool) (k : DWord) (l : List CycleInput) : (s.marked r k l).abt = s.abt := rfl
@[simp] theorem State.marked_err (s : State) (r : Bool) (k : DWord) (l : List CycleInput) : (s.marked r k l).err = s.err := rfl
@[simp] theorem State.marked_resultInt (s : State) (r : Bool) (k : DWord) (l : List CycleInput) : (s.marked r k l).resultInt = s.resultInt := rfl
@[simp] theorem State.marked_result (s : State) (r : Bool) (k : DWord) (l : List CycleInput) : (s.marked r k l).result = s.result := rfl
@[simp] theorem State.marked_offset (s : State) (r : Bool) (k : DWord) (l : List CycleInput) : (s.marked r k l).offset = s.offset := rfl
@[simp] theorem State.marked_scale (s : State) (r : Bool) (k : DWord) (l : List CycleInput) : (s.marked r k l).scale = s.scale := rfl
@[simp] theorem State.marked_sample (s : State) (r : Bool) (k : DWord) (l : List CycleInput) : (s.marked r k l).sample = s.sample := rfl
@[simp] theorem State.marked_scaleStg (s : State) (r : Bool) (k : DWord) (l : List CycleInput) : (s.marked r k l).scaleStg = k := rfl
@[simp] theorem State.marked_timeoutUs (s : State) (r : Bool) (k : DWord) (l : List CycleInput) : (s.marked r k l).timeoutUs = s.timeoutUs := rfl
@[simp] theorem State.marked_guardUs (s : State) (r : Bool) (k : DWord) (l : List CycleInput) : (s.marked r k l).guardUs = s.guardUs := rfl
@[simp] theorem State.marked_settleUs (s : State) (r : Bool) (k : DWord) (l : List CycleInput) : (s.marked r k l).settleUs = s.settleUs := rfl
@[simp] theorem State.marked_pdholdUs (s : State) (r : Bool) (k : DWord) (l : List CycleInput) : (s.marked r k l).pdholdUs = s.pdholdUs := rfl
@[simp] theorem State.marked_phase (s : State) (r : Bool) (k : DWord) (l : List CycleInput) : (s.marked r k l).phase = s.phase := rfl
@[simp] theorem State.marked_op (s : State) (r : Bool) (k : DWord) (l : List CycleInput) : (s.marked r k l).op = s.op := rfl
@[simp] theorem State.marked_times (s : State) (r : Bool) (k : DWord) (l : List CycleInput) : (s.marked r k l).times = s.times := rfl
@[simp] theorem State.marked_nconv (s : State) (r : Bool) (k : DWord) (l : List CycleInput) : (s.marked r k l).nconv = s.nconv := rfl
@[simp] theorem State.marked_npulse (s : State) (r : Bool) (k : DWord) (l : List CycleInput) : (s.marked r k l).npulse = s.npulse := rfl
@[simp] theorem State.marked_bitI (s : State) (r : Bool) (k : DWord) (l : List CycleInput) : (s.marked r k l).bitI = s.bitI := rfl
@[simp] theorem State.marked_shreg (s : State) (r : Bool) (k : DWord) (l : List CycleInput) : (s.marked r k l).shreg = s.shreg := rfl
@[simp] theorem State.marked_acc (s : State) (r : Bool) (k : DWord) (l : List CycleInput) : (s.marked r k l).acc = s.acc := rfl
@[simp] theorem State.marked_cnt (s : State) (r : Bool) (k : DWord) (l : List CycleInput) : (s.marked r k l).cnt = s.cnt := rfl
@[simp] theorem State.marked_wcnt (s : State) (r : Bool) (k : DWord) (l : List CycleInput) : (s.marked r k l).wcnt = s.wcnt := rfl
@[simp] theorem State.marked_sinceLast (s : State) (r : Bool) (k : DWord) (l : List CycleInput) : (s.marked r k l).sinceLast = s.sinceLast := rfl
@[simp] theorem State.marked_hasPrev (s : State) (r : Bool) (k : DWord) (l : List CycleInput) : (s.marked r k l).hasPrev = s.hasPrev := rfl
@[simp] theorem State.marked_pwr (s : State) (r : Bool) (k : DWord) (l : List CycleInput) : (s.marked r k l).pwr = s.pwr := rfl
@[simp] theorem State.marked_nsel (s : State) (r : Bool) (k : DWord) (l : List CycleInput) : (s.marked r k l).nsel = s.nsel := rfl
@[simp] theorem State.marked_sck (s : State) (r : Bool) (k : DWord) (l : List CycleInput) : (s.marked r k l).sck = s.sck := rfl
@[simp] theorem State.marked_inputs (s : State) (r : Bool) (k : DWord) (l : List CycleInput) : (s.marked r k l).inputs = l := rfl
@[simp] theorem State.marked_cycle (s : State) (r : Bool) (k : DWord) (l : List CycleInput) : (s.marked r k l).cycle = s.cycle := rfl
@[simp] theorem State.marked_rdata (s : State) (r : Bool) (k : DWord) (l : List CycleInput) : (s.marked r k l).rdata = s.rdata := rfl

end Sys2Proof.Machine
end

