-- ==== Sys2Proof/Laws/Ops.lean ====
section
/-! SUPPORT. What the shared operations and the commands can do: one lemma for each, for later proofs to cite. -/

namespace Sys2Proof.Machine

theorem andThen_next_iff {o : Host.Outcome State Fault Refusal} {f : State → Host.Outcome State Fault Refusal}
    {t : State} : andThen o f = .next t ↔ ∃ u, o = .next u ∧ f u = .next t := by
  cases o <;> simp [andThen]

/-- `begin_conv()` as one update (R102). -/
theorem beginConv_eq (s : State) : s.beginConv =
    { s with
      sck := s.pwrap
      phase := if s.pwrap then .wrapHi else .waitRdy
      cnt := if s.pwrap then 0 else s.cnt
      wcnt := if s.pwrap then s.wcnt else 0 } := by
  unfold State.beginConv
  cases h : s.pwrap <;> rfl

theorem onCommand_idle {s : State} (h : s.phase = .idle) (act : State → State) :
    s.onCommand act = act s.clearRejAbt := if_pos h

theorem onCommand_busy {s : State} (h : s.phase ≠ .idle) (act : State → State) :
    s.onCommand act = s.discardWrite := if_neg h

/-- What a command written while idle can leave: nothing changed; a completion at once, with at most CONFIG and SCALE changed; the start
of a power sequence; or the start of a conversion. -/
inductive IdleOutcome (i : Instr) (s t : State) : Prop
  | unchanged (h : t = s) (hi : i = .abort)
  | atOnce (g : Gain) (r : ReadyMode) (p : Bool) (k : DWord) (e : ErrCode)
      (h : t = State.complete { s.clearRejAbt with gain := g, rmode := r, pwrap := p, scale := k } e)
      (hc : i.opcode ≠ .configure → g = s.gain ∧ r = s.rmode ∧ p = s.pwrap)
      (hk : k ≠ s.scale → e = .none ∧ i = .setScale ∧ k = s.scaleStg ∧ finiteNonzero k = true)
  | power (l : Bool) (p : Phase) (h : t = s.clearRejAbt.startPower l p)
      (hp : p = .puSettle ∧ l = false ∨ p = .pdHold ∧ l = true)
  | conversion (op : Opcode) (n : BitVec 16)
      (h : t = State.beginConv { s.clearRejAbt.clearStatus with
        op := op, times := n, nconv := 0, acc := 0, npulse := gainBits s.gain })
      (hp : s.pwr = true ∨ s.pwrap = true) (hn : n ≠ 0)
      (ho : op = .readRaw ∧ n = 1 ∨ op = .read ∧ n = 1 ∨ op = .readRawAvg ∨ op = .readAvg ∨ op = .tare)

/-- A completion at once that changes neither CONFIG nor SCALE. -/
theorem IdleOutcome.failed {i : Instr} {s t : State} {e : ErrCode} (h : s.clearRejAbt.complete e = t) :
    IdleOutcome i s t :=
  .atOnce s.gain s.rmode s.pwrap s.scale e h.symm (fun _ => ⟨rfl, rfl, rfl⟩) (fun h => absurd rfl h)

theorem acceptConversion_outcome {i : Instr} {s t : State} {op : Opcode} {n : BitVec 16} (hn : n ≠ 0)
    (ho : op = .readRaw ∧ n = 1 ∨ op = .read ∧ n = 1 ∨ op = .readRawAvg ∨ op = .readAvg ∨ op = .tare)
    (h : s.clearRejAbt.acceptConversion op n = t) : IdleOutcome i s t := by
  unfold State.acceptConversion at h
  split at h
  · exact .failed h
  · rename_i hp
    refine .conversion op n h.symm ?_ hn ho
    simp only [State.clearRejAbt_pwr, State.clearRejAbt_pwrap] at hp
    cases h1 : s.pwr <;> simp_all

theorem acceptCounted_outcome {i : Instr} {s t : State} {op : Opcode} {n : BitVec 16}
    (ho : op = .readRawAvg ∨ op = .readAvg ∨ op = .tare) (h : s.clearRejAbt.acceptCounted op n = t) :
    IdleOutcome i s t := by
  unfold State.acceptCounted at h
  split at h
  · exact .failed h
  · rename_i hn
    exact acceptConversion_outcome hn (.inr (.inr ho)) h

theorem exec_idle_cases {i : Instr} {s t : State} (hs : s.phase = .idle) (h : exec i s = .next t) :
    IdleOutcome i s t := by
  cases i <;> simp only [exec, execNop, execConfigure, execReadRaw, execReadRawAvg, execRead, execReadAvg, execTare,
    execPowerUp, execPowerDown, execSetScale, execAbort, execReservedB, execReservedC, execReservedD, execReservedE,
    execReservedF, State.illegalWord, onCommand_idle hs, Host.Outcome.next.injEq] at h
  case configure g r p =>
    cases hg : gainOfCode g with
    | none => simp only [hg] at h; exact .failed h
    | some g' =>
      simp only [hg] at h
      exact .atOnce g' r p s.scale .none h.symm (fun h => absurd rfl h) (fun h => absurd rfl h)
  case readRaw => exact acceptConversion_outcome (by decide) (by simp) h
  case read => exact acceptConversion_outcome (by decide) (by simp) h
  case readRawAvg => exact acceptCounted_outcome (by simp) h
  case readAvg => exact acceptCounted_outcome (by simp) h
  case tare => exact acceptCounted_outcome (by simp) h
  case powerUp => exact .power _ _ h.symm (by simp)
  case powerDown => exact .power _ _ h.symm (by simp)
  case setScale =>
    split at h
    · rename_i hf
      exact .atOnce s.gain s.rmode s.pwrap s.scaleStg .none h.symm (fun _ => ⟨rfl, rfl, rfl⟩)
        (fun _ => ⟨rfl, rfl, rfl, hf⟩)
    · exact .failed h
  case abort => simp only [hs] at h; exact .unchanged h.symm rfl
  all_goals exact .failed h

/-- A command written while busy is discarded, but for an ABORT in WAIT_RDY. -/
theorem exec_busy {i : Instr} {s : State} (hs : s.phase ≠ .idle) (hi : ¬(i = .abort ∧ s.phase = .waitRdy)) :
    exec i s = .next s.discardWrite := by
  cases i <;> simp only [exec, execNop, execConfigure, execReadRaw, execReadRawAvg, execRead, execReadAvg, execTare,
    execPowerUp, execPowerDown, execSetScale, execAbort, execReservedB, execReservedC, execReservedD, execReservedE,
    execReservedF, State.illegalWord, onCommand_busy hs]
  case abort => cases hp : s.phase <;> simp_all

/-- `exec` always answers a next state. -/
theorem exec_total (i : Instr) (s : State) : ∃ t, exec i s = .next t := by
  cases i <;> exact ⟨_, rfl⟩

theorem illegalWord_busy {s : State} (hs : s.phase ≠ .idle) : s.illegalWord = s.discardWrite := onCommand_busy hs _

theorem illegalWord_idle {s : State} (hs : s.phase = .idle) : s.illegalWord = s.clearRejAbt.complete .illegal :=
  onCommand_idle hs _

theorem commandOf_opcode (op : Opcode) (w : Word) : (commandOf op w).opcode = op := by cases op <;> rfl

/-- What decoding a word to a command says of it (R84, R85). -/
theorem decode_ok_iff {w : Word} {i : Instr} :
    decode w = .ok i ↔ w &&& i.opcode.mask = i.opcode.pattern ∧ opField w = i.opcode ∧ i = commandOf i.opcode w := by
  unfold decode
  constructor
  · intro h
    split at h
    · cases h; rw [commandOf_opcode]; exact ⟨by assumption, rfl, rfl⟩
    · cases h
  · rintro ⟨hm, ho, hi⟩
    rw [ho, if_pos hm, ← hi]

/-- The only word that decodes to ABORT. -/
theorem decode_abort_iff (w : Word) : decode w = .ok .abort ↔ w = 0x0000000A := by
  constructor
  · intro h
    have := (decode_ok_iff.1 h).1
    rwa [show (Instr.abort.opcode).mask = 0xFFFFFFFF from rfl, word_and_full] at this
  · rintro rfl; rfl

/-- A CMD write while busy is discarded, but for the word 0x0000000A in WAIT_RDY (R201). -/
theorem writeCmd_busy {s : State} {v : Word} (hs : s.phase ≠ .idle) (h : ¬(v = 0x0000000A ∧ s.phase = .waitRdy)) :
    writeCmd v s = .next s.discardWrite := by
  unfold writeCmd
  cases hd : decode v with
  | error e => simp [illegalWord_busy hs]
  | ok i =>
    refine exec_busy hs fun ⟨hi, hp⟩ => h ⟨?_, hp⟩
    exact (decode_abort_iff v).1 (hi ▸ hd)

theorem writeCmd_total (v : Word) (s : State) : ∃ t, writeCmd v s = .next t := by
  unfold writeCmd; split
  · exact exec_total _ _
  · exact ⟨_, rfl⟩

/-- `hostAccess` always answers a next state. -/
theorem hostAccess_total (a : HostAccess) (s : State) : ∃ t, hostAccess a s = .next t := by
  cases a with
  | idle => exact ⟨_, rfl⟩
  | read off => exact ⟨_, rfl⟩
  | write off v =>
    simp only [hostAccess, busWrite]
    split <;> first | exact writeCmd_total _ _ | exact ⟨_, rfl⟩

/-- While busy, an access other than an accepted ABORT can change REJ and SCALE_STG only, and never clears REJ (R201, R64). -/
theorem hostAccess_busy {a : HostAccess} {s : State} (hs : s.phase ≠ .idle) (ha : s.acceptsAbort a = false) :
    ∃ r k, hostAccess a s = .next { s with rej := r, scaleStg := k } ∧ (s.rej = true → r = true) := by
  have keep : ∃ r k, (Host.Outcome.next s : Host.Outcome State Fault Refusal) = .next { s with rej := r, scaleStg := k } ∧
      (s.rej = true → r = true) := ⟨s.rej, s.scaleStg, rfl, id⟩
  have disc : ∃ r k, (Host.Outcome.next s.discardWrite : Host.Outcome State Fault Refusal) =
      .next { s with rej := r, scaleStg := k } ∧ (s.rej = true → r = true) := ⟨true, s.scaleStg, rfl, fun _ => rfl⟩
  cases a with
  | idle => exact keep
  | read off => exact keep
  | write off v =>
    simp only [hostAccess, busWrite]
    split <;> try exact keep
    · rename_i hr
      rw [writeCmd_busy hs]
      · exact disc
      · rintro ⟨rfl, hp⟩
        simp [State.acceptsAbort, hr, hp] at ha
    · exact ⟨s.rej, _, rfl, id⟩
    · exact ⟨s.rej, _, rfl, id⟩
    all_goals
      simp only [State.writeTiming, if_neg hs]
      exact disc

/-- An accepted ABORT ends the wait with ERR_TIMEOUT and ABT (R185). -/
theorem hostAccess_abort {a : HostAccess} {s : State} (ha : s.acceptsAbort a = true) :
    hostAccess a s = .next (State.complete { s with abt := true } .timeout) ∧ s.phase = .waitRdy := by
  cases a with
  | idle => cases ha
  | read off => cases ha
  | write off v =>
    simp only [State.acceptsAbort, Bool.and_eq_true, decide_eq_true_eq] at ha
    obtain ⟨⟨hr, rfl⟩, hp⟩ := ha
    refine ⟨?_, hp⟩
    simp only [hostAccess, busWrite, hr, writeCmd, (decode_abort_iff _).2 rfl, exec, execAbort, hp]

/-- While idle, an access writes a timing register, a staging word, or CMD, or changes nothing (R64). -/
theorem hostAccess_idle_cases {a : HostAccess} {s t : State} (hs : s.phase = .idle) (h : hostAccess a s = .next t) :
    (∃ t1 t2 t3 t4 k, t = { s with timeoutUs := t1, guardUs := t2, settleUs := t3, pdholdUs := t4, scaleStg := k }) ∨
    (∃ off v, a = .write off v ∧ regAt off = some .cmd ∧
      ((∃ i, decode v = .ok i ∧ exec i s = .next t) ∨ t = s.clearRejAbt.complete .illegal)) := by
  have same : t = s →
      ∃ t1 t2 t3 t4 k, t = { s with timeoutUs := t1, guardUs := t2, settleUs := t3, pdholdUs := t4, scaleStg := k } :=
    fun e => ⟨_, _, _, _, _, e⟩
  cases a with
  | idle => cases h; exact .inl (same rfl)
  | read off => cases h; exact .inl (same rfl)
  | write off v =>
    simp only [hostAccess, busWrite] at h
    split at h
    case h_2 hr =>
      refine .inr ⟨off, v, rfl, hr, ?_⟩
      unfold writeCmd at h
      cases hd : decode v with
      | ok i => exact .inl ⟨i, rfl, by simpa [hd] using h⟩
      | error e =>
        simp only [hd, illegalWord_idle hs, Host.Outcome.next.injEq] at h
        exact .inr h.symm
    all_goals
      try simp only [State.writeTiming, if_pos hs] at h
      cases h
      exact .inl ⟨_, _, _, _, _, rfl⟩

end Sys2Proof.Machine
end

