-- ==== Sys2Proof/Laws/Cycle.lean ====
section
/-! SUPPORT. What one step can do, said once: an edge under reset, an idle cycle, an accepted ABORT, or a phase step. -/

namespace Sys2Proof.Machine

/-- The outcome of a phase step with REJ, SCALE_STG and the listed inputs replaced. -/
def markedOutcome (r : Bool) (k : DWord) (l : List CycleInput) (o : Host.Outcome State Fault Refusal) : Host.Outcome State Fault Refusal :=
  andThen o fun u => .next (u.marked r k l)

theorem markedOutcome_next (r : Bool) (k : DWord) (l : List CycleInput) (s : State) : markedOutcome r k l (.next s) = .next (s.marked r k l) := rfl

theorem markedOutcome_ite (r : Bool) (k : DWord) (l : List CycleInput) (c : Prop) [Decidable c] (o o' : Host.Outcome State Fault Refusal) :
    markedOutcome r k l (if c then o else o') = if c then markedOutcome r k l o else markedOutcome r k l o' :=
  apply_ite _ c o o'

theorem marked_ite (r : Bool) (k : DWord) (l : List CycleInput) (c : Prop) [Decidable c] (s s' : State) :
    (if c then s else s').marked r k l = if c then s.marked r k l else s'.marked r k l :=
  apply_ite (fun u => State.marked u r k l) c s s'

theorem beginConv_marked (s : State) (r : Bool) (k : DWord) (l : List CycleInput) :
    (s.marked r k l).beginConv = s.beginConv.marked r k l := by
  simp only [State.beginConv, marked_ite]; rfl

theorem finish_marked (s : State) (r : Bool) (k : DWord) (l : List CycleInput) :
    finish (s.marked r k l) = markedOutcome r k l (finish s) := by
  have hop : (s.marked r k l).op = s.op := rfl
  unfold finish
  rw [hop]
  cases s.op <;> simp only [finishReadRaw, finishReadRawAvg, finishReadAvg, finishRead, finishTare,
    markedOutcome_ite] <;> rfl

theorem sampleBit_marked (s : State) (r : Bool) (k : DWord) (l : List CycleInput) (b : Bool) :
    (s.marked r k l).sampleBit b = (s.sampleBit b).marked r k l := by
  simp only [State.sampleBit, marked_ite]; rfl

theorem endConv_marked (s : State) (r : Bool) (k : DWord) (l : List CycleInput) :
    endConv (s.marked r k l) = markedOutcome r k l (endConv s) := by
  have hb : (s.marked r k l).convBookkeeping = s.convBookkeeping.marked r k l := rfl
  simp only [endConv, hb, beginConv_marked, finish_marked, markedOutcome_ite]; rfl

/-- No phase step reads or writes REJ or SCALE_STG, the two fields a host write can change while busy (R101, R201), nor the listed
inputs. -/
theorem phaseStep_marked (p : Phase) (inp : CycleInput) (s : State) (r : Bool) (k : DWord) (l : List CycleInput) :
    phaseStep p inp (s.marked r k l) = markedOutcome r k l (phaseStep p inp s) := by
  cases p <;> simp only [phaseStep, pdHoldStep, puSettleStep, wrapHiStep, wrapLoStep, waitRdyStep, clkHiStep, clkLoStep,
    recoverHiStep, recoverLoStep, endConv_marked, sampleBit_marked, markedOutcome_ite, markedOutcome_next, marked_ite] <;>
    rfl

/-- No phase step writes REJ, SCALE_STG or the listed inputs. -/
theorem phaseStep_keeps {p : Phase} {inp : CycleInput} {s u : State} (h : phaseStep p inp s = .next u) :
    u.rej = s.rej ∧ u.scaleStg = s.scaleStg ∧ u.inputs = s.inputs := by
  have hm := phaseStep_marked p inp s s.rej s.scaleStg s.inputs
  rw [show s.marked s.rej s.scaleStg s.inputs = s from rfl, h] at hm
  rw [Host.Outcome.next.inj hm]
  exact ⟨rfl, rfl, rfl⟩

/-- The fields no phase step touches: the parameters, CONFIG, the timing registers, SCALE, the command's own fields, ABT, and the
clocks of the model. -/
structure SameFrame (s u : State) : Prop where
  cfg : u.cfg = s.cfg
  gain : u.gain = s.gain
  rmode : u.rmode = s.rmode
  pwrap : u.pwrap = s.pwrap
  scale : u.scale = s.scale
  timeoutUs : u.timeoutUs = s.timeoutUs
  guardUs : u.guardUs = s.guardUs
  settleUs : u.settleUs = s.settleUs
  pdholdUs : u.pdholdUs = s.pdholdUs
  op : u.op = s.op
  times : u.times = s.times
  npulse : u.npulse = s.npulse
  abt : u.abt = s.abt
  sinceLast : u.sinceLast = s.sinceLast
  cycle : u.cycle = s.cycle
  rdata : u.rdata = s.rdata

/-- What the last conversion of a command leaves: a result register written, and completion without error (R140 to R143, R170). -/
inductive FinishOutcome (s u : State) : Prop
  | readRaw (ho : s.op = .readRaw)
      (h : u = State.complete { s with resultInt := BitVec.ofInt 32 (s.acc.toInt + s.offset.toInt) } .none)
  | readRawAvg (ho : s.op = .readRawAvg) (ht : s.times ≠ 0)
      (h : u = State.complete { s with result := s.meanWord } .none)
  | read (ho : s.op = .read) (hk : finiteNonzero s.scale = true)
      (h : u = State.complete { s with result := rne64 ((s.sum + s.offsetVal) / val s.scale) } .none)
  | readAvg (ho : s.op = .readAvg) (ht : s.times ≠ 0) (hk : finiteNonzero s.scale = true)
      (h : u = State.complete { s with result := rne64 (val s.meanWord / val s.scale) } .none)
  | tare (ho : s.op = .tare) (ht : s.times ≠ 0)
      (h : u = State.complete { s with offset := BitVec.ofInt 32 (-(rndDiv s.acc.toInt s.times.toNat)) } .none)

theorem finish_cases {s u : State} (h : finish s = .next u) : FinishOutcome s u := by
  unfold finish at h
  cases ho : s.op <;> simp only [ho] at h <;>
    try simp only [finishReadRaw, finishReadRawAvg, finishRead, finishReadAvg, finishTare] at h
  case readRaw => exact .readRaw ho (Host.Outcome.next.inj h).symm
  case readRawAvg =>
    split at h
    · cases h
    · exact .readRawAvg ho ‹_› (Host.Outcome.next.inj h).symm
  case read =>
    split at h
    · cases h
    · exact .read ho ((Bool.not_eq_false _).mp ‹¬finiteNonzero s.scale = false›) (Host.Outcome.next.inj h).symm
  case readAvg =>
    split at h
    · cases h
    · split at h
      · cases h
      · exact .readAvg ho ‹_› ((Bool.not_eq_false _).mp ‹¬finiteNonzero s.scale = false›) (Host.Outcome.next.inj h).symm
  case tare =>
    split at h
    · cases h
    · exact .tare ho ‹_› (Host.Outcome.next.inj h).symm
  all_goals cases h

theorem finish_frame {s u : State} (h : finish s = .next u) : SameFrame s u := by
  rcases finish_cases h with ⟨_, rfl⟩ | ⟨_, _, rfl⟩ | ⟨_, _, rfl⟩ | ⟨_, _, _, rfl⟩ | ⟨_, _, rfl⟩ <;> constructor <;> rfl

theorem phaseStep_frame {p : Phase} {inp : CycleInput} {s u : State} (h : phaseStep p inp s = .next u) :
    SameFrame s u := by
  have hb : SameFrame s s.convBookkeeping.beginConv := by
    rw [beginConv_eq]; constructor <;> rfl
  have hf : ∀ {u}, finish s.convBookkeeping = .next u → SameFrame s u := fun h => by
    obtain ⟨⟩ := finish_frame h; constructor <;> assumption
  cases p <;> simp only [phaseStep, pdHoldStep, puSettleStep, wrapHiStep, wrapLoStep, waitRdyStep, clkHiStep, clkLoStep,
    recoverHiStep, recoverLoStep, endConv, State.sampleBit, Host.Outcome.next.injEq] at h
  case clkLo =>
    split at h
    · cases h; constructor <;> rfl
    · split at h
      · split at h
        · cases h; constructor <;> rfl
        · split at h
          · cases h; exact hb
          · exact hf h
      · cases h; constructor <;> rfl
  case idle => subst h; constructor <;> rfl
  all_goals
    subst h
    split <;> (try split) <;> (try split) <;> constructor <;> rfl

/-- An edge under reset (R230). -/
theorem step_of_rst {s : State} (h : s.currentInput.rst = true) :
    step s = .next (s.advance s.currentInput s.applyReset) := by
  simp [step, clockCycle, clockEdge, h, andThen]

/-- A cycle that starts idle: the host access, and the end of the cycle (R101, R127). -/
theorem step_of_idle {s u : State} (hr : s.currentInput.rst = false) (hp : s.phase = .idle)
    (hu : hostAccess s.currentInput.access s = .next u) :
    step s = .next (s.advance s.currentInput (u.tickSinceLast false)) := by
  have ha : s.acceptsAbort s.currentInput.access = false := by
    unfold State.acceptsAbort; split <;> simp [hp]
  simp [step, clockCycle, clockEdge, hr, andThen, hu, ha, hp, phaseStep, State.endsConversion]

/-- A cycle with an accepted ABORT (R185). -/
theorem step_of_abort {s : State} (hr : s.currentInput.rst = false)
    (ha : s.acceptsAbort s.currentInput.access = true) :
    step s = .next (s.advance s.currentInput
      ((State.complete { s with abt := true } .timeout).tickSinceLast false)) := by
  simp [step, clockCycle, clockEdge, hr, andThen, (hostAccess_abort ha).1, ha]

/-- Every other busy cycle: the phase step, beside which the host can only have set REJ or written SCALE_STG, as its
access alone does (R101, R201). -/
theorem step_of_busy {s : State} (hr : s.currentInput.rst = false) (hp : s.phase ≠ .idle)
    (ha : s.acceptsAbort s.currentInput.access = false) :
    ∃ r k, (s.rej = true → r = true) ∧ hostAccess s.currentInput.access s = .next (s.marked r k s.inputs) ∧
      step s = andThen (phaseStep s.phase s.currentInput s) fun u =>
        .next (s.advance s.currentInput
          ((u.marked r k s.inputs).tickSinceLast (s.endsConversion s.currentInput))) := by
  obtain ⟨r, k, h, hrej⟩ := hostAccess_busy hp ha
  refine ⟨r, k, hrej, h, ?_⟩
  have hm := phaseStep_marked s.phase s.currentInput s r k s.inputs
  have h' : hostAccess s.currentInput.access s = .next (s.marked r k s.inputs) := h
  have he : step s = andThen (andThen (phaseStep s.phase s.currentInput (s.marked r k s.inputs)) fun u =>
      .next (u.tickSinceLast (s.endsConversion s.currentInput))) fun t => .next (s.advance s.currentInput t) := by
    simp only [step, clockCycle, clockEdge, hr, h', ha, andThen, Bool.false_eq_true, if_false]
  rw [he, hm]
  cases phaseStep s.phase s.currentInput s <;> rfl

/-- A cycle in which the host writes nothing. -/
theorem step_of_quiet {s : State} (hr : s.currentInput.rst = false)
    (ha : ∀ off v, s.currentInput.access ≠ .write off v) :
    step s = andThen (phaseStep s.phase s.currentInput s) fun u =>
      .next (s.advance s.currentInput (u.tickSinceLast (s.endsConversion s.currentInput))) := by
  have h1 : hostAccess s.currentInput.access s = .next s := by
    cases hc : s.currentInput.access with
    | idle => rfl
    | read off => rfl
    | write off v => exact absurd hc (ha off v)
  have h2 : s.acceptsAbort s.currentInput.access = false := by
    cases hc : s.currentInput.access with
    | idle => rfl
    | read off => rfl
    | write off v => exact absurd hc (ha off v)
  have he : step s = andThen (andThen (phaseStep s.phase s.currentInput s) fun u =>
      .next (u.tickSinceLast (s.endsConversion s.currentInput))) fun t => .next (s.advance s.currentInput t) := by
    simp only [step, clockCycle, clockEdge, hr, h1, h2, andThen, Bool.false_eq_true, if_false]
  rw [he]
  cases phaseStep s.phase s.currentInput s <;> rfl

/-- Every way a step answers a next state. -/
inductive StepOutcome (s t : State) : Prop
  | reset (hr : s.currentInput.rst = true) (h : t = s.advance s.currentInput s.applyReset)
  | idle (hr : s.currentInput.rst = false) (hp : s.phase = .idle) (u : State)
      (hu : hostAccess s.currentInput.access s = .next u)
      (h : t = s.advance s.currentInput (u.tickSinceLast false))
  | abort (hr : s.currentInput.rst = false) (hp : s.phase = .waitRdy)
      (h : t = s.advance s.currentInput ((State.complete { s with abt := true } .timeout).tickSinceLast false))
  | busy (hr : s.currentInput.rst = false) (hp : s.phase ≠ .idle) (r : Bool) (k : DWord) (u : State)
      (hrej : s.rej = true → r = true) (hu : phaseStep s.phase s.currentInput s = .next u)
      (h : t = s.advance s.currentInput
        ((u.marked r k s.inputs).tickSinceLast (s.endsConversion s.currentInput)))

theorem step_cases {s t : State} (h : step s = .next t) : StepOutcome s t := by
  cases hr : s.currentInput.rst with
  | true =>
    rw [step_of_rst hr] at h
    exact .reset hr (Host.Outcome.next.inj h).symm
  | false =>
    by_cases hp : s.phase = .idle
    · obtain ⟨u, hu⟩ := hostAccess_total s.currentInput.access s
      rw [step_of_idle hr hp hu] at h
      exact .idle hr hp u hu (Host.Outcome.next.inj h).symm
    · cases ha : s.acceptsAbort s.currentInput.access with
      | true =>
        rw [step_of_abort hr ha] at h
        exact .abort hr (hostAccess_abort ha).2 (Host.Outcome.next.inj h).symm
      | false =>
        obtain ⟨r, k, hrej, -, hst⟩ := step_of_busy hr hp ha
        rw [hst] at h
        obtain ⟨u, hu, ht⟩ := andThen_next_iff.1 h
        exact .busy hr hp r k u hrej hu (Host.Outcome.next.inj ht).symm

end Sys2Proof.Machine
end

