-- ==== Sys2Proof/Laws/Numeric.lean ====
section
/-! SUPPORT. What the numeric primitives give, said once in integers (42_calibration.md R160, R162). -/

namespace Sys2Proof.Machine

/-- `rndDiv s n` is at most half of n away from s when multiplied back, and even where it is exactly half of n away (R162). -/
theorem rndDiv_spec (s : Int) {n : Nat} (hn : 1 ≤ n) :
    -(n : Int) ≤ 2 * (s - rndDiv s n * n) ∧ 2 * (s - rndDiv s n * n) ≤ n ∧
    (2 * (s - rndDiv s n * n) = n ∨ 2 * (s - rndDiv s n * n) = -(n : Int) → rndDiv s n % 2 = 0) := by
  have h0 : (0 : Int) < n := by omega
  have hr : s - s / n * n = s % n := by rw [Int.emod_def]; ring
  have h1 := Int.emod_nonneg s h0.ne'
  have h2 := Int.emod_lt_of_pos s h0
  unfold rndDiv
  simp only [hr]
  generalize hq : s / (n : Int) = q at hr
  have hup : (q + 1) * (n : Int) = q * n + n := by ring
  split_ifs with h3 h4
  · rw [hup]; omega
  · omega
  · rcases Int.emod_two_eq_zero_or_one q with h5 | h5 <;> rw [h5]
    · rw [add_zero]; omega
    · rw [hup]; omega

/-- The rounded quotient of a natural number by a positive one is a natural number. -/
theorem rndDiv_nonneg (a : Nat) {n : Nat} (hn : 1 ≤ n) : 0 ≤ rndDiv (a : Int) n := by
  obtain ⟨-, h, -⟩ := rndDiv_spec (a : Int) hn
  by_contra hneg
  have : rndDiv (a : Int) n * n ≤ -1 * n := by
    apply mul_le_mul_of_nonneg_right <;> omega
  omega

end Sys2Proof.Machine
end

