-- ==== Sys2Proof/Laws/PerInstr.lean ====
section
/-! SUPPORT. The family EncodedRow: the word of each command carries its own row's opcode and fixed bits (30_encoding.md R80, R84). -/

namespace Sys2Proof

theorem ofCode_code (op : Opcode) : Opcode.ofCode op.code = op := by cases op <;> rfl

/-- The fixed bits of a counted word: its low half is the opcode. -/
theorem encodeTimes_low (op : Opcode) (n : Nat) :
    (encodeTimes op n).extractLsb' 0 4 = op.code ∧ encodeTimes op n &&& 0x0000FFFF = 0#28 ++ op.code := by
  have h := op.code.isLt
  have e : (encodeTimes op n).toNat = n % 2 ^ 16 * 2 ^ 16 + op.code.toNat := by
    rw [encodeTimes, toNat_append_add, toNat_append_add]
    simp
  constructor <;> apply BitVec.eq_of_toNat_eq
  · rw [BitVec.extractLsb'_toNat, e]; simp; omega
  · rw [word_and_low16, e, toNat_append_add]; simp; omega

/-- The fixed bits of a reserved word: its low nibble is the opcode. -/
theorem reserved_low (rest : BitVec 28) (c : BitVec 4) :
    (rest ++ c : Word).extractLsb' 0 4 = c ∧ (rest ++ c : Word) &&& 0x0000000F = 0#28 ++ c := by
  have h := c.isLt
  constructor <;> apply BitVec.eq_of_toNat_eq
  · rw [BitVec.extractLsb'_toNat, toNat_append_add]; simp; omega
  · rw [word_and_low4, toNat_append_add, toNat_append_add]; simp; omega

namespace Laws

/-- The word of a command has the command's opcode in OP, and its masked bits are the row's match (R80, R84). -/
def EncodedRow.Statement (i : Instr) : Prop :=
  opField (encode i) = i.opcode ∧ encode i &&& i.opcode.mask = i.opcode.pattern

theorem EncodedRow.nop : Statement .nop := ⟨rfl, rfl⟩

theorem EncodedRow.configure (gain : Nat) (ready : ReadyMode) (wrap : Bool) : Statement (.configure gain ready wrap) := by
  have h : ∀ (g : BitVec 2) (r p : Bool),
      opField (0#24 ++ (BitVec.ofBool p ++ (BitVec.ofBool r ++ (g ++ 1#4)))) = .configure ∧
      (0#24 ++ (BitVec.ofBool p ++ (BitVec.ofBool r ++ (g ++ 1#4)))) &&& 0xFFFFFF0F#32 = 1#32 := by decide
  exact h _ _ _

theorem EncodedRow.readRaw : Statement .readRaw := ⟨rfl, rfl⟩

theorem EncodedRow.readRawAvg (times : Nat) : Statement (.readRawAvg times) := by
  obtain ⟨h, h'⟩ := encodeTimes_low .readRawAvg times
  exact ⟨by rw [encode, opField, h, ofCode_code]; rfl, h'⟩

theorem EncodedRow.read : Statement .read := ⟨rfl, rfl⟩

theorem EncodedRow.readAvg (times : Nat) : Statement (.readAvg times) := by
  obtain ⟨h, h'⟩ := encodeTimes_low .readAvg times
  exact ⟨by rw [encode, opField, h, ofCode_code]; rfl, h'⟩

theorem EncodedRow.tare (times : Nat) : Statement (.tare times) := by
  obtain ⟨h, h'⟩ := encodeTimes_low .tare times
  exact ⟨by rw [encode, opField, h, ofCode_code]; rfl, h'⟩

theorem EncodedRow.powerUp : Statement .powerUp := ⟨rfl, rfl⟩

theorem EncodedRow.powerDown : Statement .powerDown := ⟨rfl, rfl⟩

theorem EncodedRow.setScale : Statement .setScale := ⟨rfl, rfl⟩

theorem EncodedRow.abort : Statement .abort := ⟨rfl, rfl⟩

theorem EncodedRow.reservedB (rest : BitVec 28) : Statement (.reservedB rest) := by
  obtain ⟨h, h'⟩ := reserved_low rest 0xB#4
  exact ⟨by rw [encode, opField, h]; rfl, h'⟩

theorem EncodedRow.reservedC (rest : BitVec 28) : Statement (.reservedC rest) := by
  obtain ⟨h, h'⟩ := reserved_low rest 0xC#4
  exact ⟨by rw [encode, opField, h]; rfl, h'⟩

theorem EncodedRow.reservedD (rest : BitVec 28) : Statement (.reservedD rest) := by
  obtain ⟨h, h'⟩ := reserved_low rest 0xD#4
  exact ⟨by rw [encode, opField, h]; rfl, h'⟩

theorem EncodedRow.reservedE (rest : BitVec 28) : Statement (.reservedE rest) := by
  obtain ⟨h, h'⟩ := reserved_low rest 0xE#4
  exact ⟨by rw [encode, opField, h]; rfl, h'⟩

theorem EncodedRow.reservedF (rest : BitVec 28) : Statement (.reservedF rest) := by
  obtain ⟨h, h'⟩ := reserved_low rest 0xF#4
  exact ⟨by rw [encode, opField, h]; rfl, h'⟩

end Laws

end Sys2Proof
end

