-- ==== Sys2Proof/Tests/Slice0.lean ====
section
/-! SUPPORT. The model's own tests, their expected results from 95_test_vectors.md and 30_encoding.md R86, and a witness for the
hypotheses of each statement. -/

namespace Sys2Proof.Machine.Tests

/-- A part of the state an outcome gives, or none where it stops. -/
def look {α : Type} (o : Host.Outcome State Fault Refusal) (f : State → α) : Option α :=
  match o with
  | .next s => some (f s)
  | .fault _ => none
  | .refused _ => none

/-- A cycle's inputs with the given access and DOUT level. -/
def cyc (a : HostAccess) (dout : Bool) : CycleInput := { access := a, dout := dout, lineErr := false, rst := false }

/-- An idle state with these inputs. -/
def idleState (inputs : List CycleInput) : State := { State.reset with inputs := inputs }

/-- A busy state in phase `p` of a command, with one selector pulse, at pulse `bit`. -/
def busyState (p : Phase) (op : Opcode) (times nconv : BitVec 16) (bit : BitVec 5) (inputs : List CycleInput) : State :=
  { State.reset with
    phase := p, op := op, times := times, nconv := nconv, npulse := 1, bitI := bit
    sck := sckLevel p true, inputs := inputs }

/-- The last low cycle of the last conversion of a command: `sum` is already accumulated, `field` has been received. -/
def lastLow (op : Opcode) (times : Nat) (sum : Int) (field : BitVec 24) (o : Int) (k : DWord) : State :=
  { busyState .clkLo op (BitVec.ofNat 16 times) (BitVec.ofNat 16 (times - 1)) 24 [cyc .idle true] with
    acc := BitVec.ofInt 48 sum, shreg := field, offset := BitVec.ofInt 32 o, scale := k }

/-! ## Well-formedness: an ill-formed term for each check -/

theorem test_wf_refuses_gain_4 : (Instr.configure 4 .polling false).wellFormed = false := by decide
theorem test_wf_refuses_readRawAvg_65536 : (Instr.readRawAvg 65536).wellFormed = false := by decide
theorem test_wf_refuses_readAvg_65536 : (Instr.readAvg 65536).wellFormed = false := by decide
theorem test_wf_refuses_tare_65536 : (Instr.tare 65536).wellFormed = false := by decide
theorem test_wf_admits_extremes :
    (Instr.configure 3 .debounced true).wellFormed = true ∧ (Instr.tare 0).wellFormed = true ∧
    (Instr.readAvg 65535).wellFormed = true := by decide
theorem test_params_refused :
    Config.ofParams 0 1 1 false 0 = none ∧ Config.ofParams 1 60 1 false 0 = none ∧ Config.ofParams 1 0 1 false 0 = none ∧
    Config.ofParams 1 1 0 false 0 = none := by decide
theorem test_params_admitted : (Config.ofParams 1 59 1 true 0).isSome = true := by decide

/-! ## Decoding: a word of each row, written out from R80 as TIMES ++ 0s ++ P ++ R ++ G ++ OP -/

theorem test_decode_nop : decode 0b00000000000000000000000000000000#32 = .ok .nop := by rfl
theorem test_decode_configure :
    decode 0b00000000000000000000000011100001#32 = .ok (.configure 2 .debounced true) := by rfl
theorem test_decode_readRaw : decode 0b00000000000000000000000000000010#32 = .ok .readRaw := by rfl
theorem test_decode_readRawAvg : decode 0b00000000000000010000000000000011#32 = .ok (.readRawAvg 1) := by rfl
theorem test_decode_read : decode 0b00000000000000000000000000000100#32 = .ok .read := by rfl
theorem test_decode_readAvg : decode 0b11111111111111110000000000000101#32 = .ok (.readAvg 65535) := by rfl
theorem test_decode_tare : decode 0b00000000000010100000000000000110#32 = .ok (.tare 10) := by rfl
theorem test_decode_powerUp : decode 0b00000000000000000000000000000111#32 = .ok .powerUp := by rfl
theorem test_decode_powerDown : decode 0b00000000000000000000000000001000#32 = .ok .powerDown := by rfl
theorem test_decode_setScale : decode 0b00000000000000000000000000001001#32 = .ok .setScale := by rfl
theorem test_decode_abort : decode 0b00000000000000000000000000001010#32 = .ok .abort := by rfl
theorem test_decode_reservedB : decode 0b00000000000000000000000000001011#32 = .ok (.reservedB 0) := by rfl
theorem test_decode_reservedC : decode 0b00000000000000000000000000011100#32 = .ok (.reservedC 1) := by rfl
theorem test_decode_reservedD : decode 0b00000000000000000000000000001101#32 = .ok (.reservedD 0) := by rfl
theorem test_decode_reservedE : decode 0b10000000000000000000000000001110#32 = .ok (.reservedE 0x8000000) := by rfl
theorem test_decode_reservedF : decode 0b00000000000000000000000000001111#32 = .ok (.reservedF 0) := by rfl
theorem test_decode_stray_bits :
    decode 0x00000131 = .error (.strayBits .configure) ∧ decode 0x0000001A = .error (.strayBits .abort) ∧
    decode 0x00010002 = .error (.strayBits .readRaw) ∧ decode 0x00001003 = .error (.strayBits .readRawAvg) := by
  exact ⟨rfl, rfl, rfl, rfl⟩
theorem test_table_word : decodeTableWord 32 0x000A0006 = some (.tare 10) ∧ decodeTableWord 32 0x00000102 = none := by
  decide

/-! ## Numerics (95_test_vectors.md 2.1, 2.4; 42_calibration.md R160 to R162) -/

theorem test_decode24 :
    decode24 0x7FFFFF = 8388607 ∧ decode24 0x800000 = -8388608 ∧ decode24 0xABCDEF = -5517841 ∧
    decode24 0x123456 = 1193046 ∧ decode24 0xFFFFFF = -1 := by decide
theorem test_rndDiv :
    [rndDiv 5 2, rndDiv 7 2, rndDiv (-5) 2, rndDiv (-7) 2, rndDiv 15 10, rndDiv 14 10, rndDiv (-15) 10, rndDiv 1 3,
      rndDiv 2 3, rndDiv (-2) 3] = [2, 4, -2, -4, 2, 1, -2, 0, 1, -1] := by decide
theorem test_rne64_third : rne64 (1 / 3) = 0x3FD5555555555555 ∧ rne64 (-1 / 3) = 0xBFD5555555555555 := by
  decide +kernel
theorem test_rne64_exact : rne64 450 = 0x407C200000000000 ∧ rne64 7 = 0x401C000000000000 ∧ rne64 0 = 0 := by
  decide +kernel
theorem test_val : val 0x4000000000000000 = 2 ∧ val 0xBFF0000000000000 = -1 ∧ val 0x3FE0000000000000 = 1 / 2 := by
  decide +kernel
theorem test_finiteNonzero :
    [0x0000000000000000, 0x8000000000000000, 0x7FF8000000000000, 0xFFF0000000000000, 0xBFF0000000000000].map
      finiteNonzero = [false, false, false, false, true] := by decide

/-! ## The commands (95_test_vectors.md 2.3 to 2.6) -/

theorem test_nop : look (busWrite 0 0x00000000 { State.reset with rej := true })
    (fun t => (t.done, t.err, t.rej)) = some (true, .none, false) := by decide
theorem test_configure : look (busWrite 0 0x000000E1 State.reset)
    (fun t => (t.err, t.configWord)) = some (.none, 0x0000000E) := by decide
theorem test_configure_gain_3 : look (busWrite 0 0x00000031 State.reset)
    (fun t => (t.done, t.err, t.configWord)) = some (true, .config, 0) := by decide
theorem test_readRaw_accepted : look (busWrite 0 0x00000002 State.reset)
    (fun t => (t.phase, t.npulse, t.times, t.sck)) = some (.waitRdy, 1, 1, false) := by decide
theorem test_readRaw_result : look (step (lastLow .readRaw 1 0 0x7FFFFF 8388608 0x3FF0000000000000))
    (fun t => (t.resultInt, t.sample, t.nsel)) = some (0x00FFFFFF, 0x007FFFFF, 1) := by decide
theorem test_readRawAvg_zero : look (busWrite 0 0x00000003 { State.reset with pwr := false })
    (fun t => (t.err, t.phase)) = some (.invalidArg, .idle) := by decide
theorem test_readRawAvg_result : look (step (lastLow .readRawAvg 3 1 0 0 0x3FF0000000000000))
    (fun t => (t.result, t.err)) = some (0x3FD5555555555555, .none) := by decide +kernel
theorem test_read_powered_down : look (busWrite 0 0x00000004 { State.reset with pwr := false, sck := true })
    (fun t => (t.err, t.phase, t.sck)) = some (.poweredDown, .idle, true) := by decide
theorem test_read_result : look (step (lastLow .read 1 0 1000 (-100) 0x4000000000000000))
    (fun t => t.result) = some 0x407C200000000000 := by decide +kernel
theorem test_readAvg_zero : look (busWrite 0 0x00000005 State.reset)
    (fun t => (t.done, t.err, t.sck)) = some (true, .invalidArg, false) := by decide
theorem test_readAvg_result : look (step (lastLow .readAvg 4 12 6 (-4) 0x3FE0000000000000))
    (fun t => t.result) = some 0x3FF0000000000000 := by decide +kernel
theorem test_tare_ties_to_even : look (step (lastLow .tare 2 (-5) 0 7 0x3FF0000000000000))
    (fun t => t.offset) = some 2 := by decide
theorem test_tare_extreme : look (step (lastLow .tare 10 (9 * -8388608) 0x800000 0 0x3FF0000000000000))
    (fun t => t.offset) = some 0x00800000 := by decide
theorem test_powerUp : look (busWrite 0 0x00000007 { State.reset with pwr := false, sck := true })
    (fun t => (t.phase, t.sck, t.pwr)) = some (.puSettle, false, false) := by decide
theorem test_powerDown : look (busWrite 0 0x00000008 State.reset)
    (fun t => (t.phase, t.sck, t.pwr)) = some (.pdHold, true, true) := by decide
theorem test_setScale : look (busWrite 0 0x00000009 { State.reset with scaleStg := 0xBFF0000000000000 })
    (fun t => (t.err, t.scale)) = some (.none, 0xBFF0000000000000) := by decide
theorem test_setScale_minus_zero : look (busWrite 0 0x00000009 { State.reset with scaleStg := 0x8000000000000000 })
    (fun t => (t.err, t.scale)) = some (.invalidArg, 0x3FF0000000000000) := by decide
theorem test_abort_waiting : look (busWrite 0 0x0000000A (busyState .waitRdy .readRaw 1 0 0 []))
    (fun t => (t.done, t.err, t.abt, t.rej)) = some (true, .timeout, true, false) := by decide
theorem test_abort_clocking : look (busWrite 0 0x0000000A (busyState .clkHi .readRaw 1 0 0 []))
    (fun t => (t.rej, t.phase)) = some (true, .clkHi) := by decide
theorem test_reservedB : look (busWrite 0 0x0000000B State.reset) (fun t => t.err) = some .illegal := by decide
theorem test_reservedC : look (busWrite 0 0x0000000C State.reset) (fun t => t.err) = some .illegal := by decide
theorem test_reservedD : look (busWrite 0 0x0000000D State.reset) (fun t => t.err) = some .illegal := by decide
theorem test_reservedE : look (busWrite 0 0x0000000E State.reset) (fun t => t.err) = some .illegal := by decide
theorem test_reservedF : look (busWrite 0 0xFFFFFFFF State.reset) (fun t => t.err) = some .illegal := by decide

/-! ## Accesses and phases (95_test_vectors.md P1, P5, 2.3, 2.6) -/

theorem test_status_waiting_rej :
    State.statusWord { busyState .waitRdy .readRaw 1 0 0 [] with rej := true } true = 0x00005039 := by decide
theorem test_status_timed_out :
    State.statusWord { State.reset with done := true, rej := true, err := .timeout } true = 0x0000023A := by decide
theorem test_status_after_read :
    State.statusWord { State.reset with done := true, nsel := 1 } true = 0x0001001A := by decide
theorem test_write_busy_timing : look (busWrite 0x30 9 (busyState .waitRdy .readRaw 1 0 0 []))
    (fun t => (t.rej, t.timeoutUs)) = some (true, 1000000) := by decide
theorem test_write_busy_staging : look (busWrite 0x28 9 (busyState .waitRdy .readRaw 1 0 0 []))
    (fun t => (t.rej, t.scaleStg)) = some (false, 0x3FF0000000000009) := by decide
theorem test_readiness_beats_timeout :
    look (step { busyState .waitRdy .readRaw 1 0 0 [cyc .idle false] with timeoutUs := 3, wcnt := 2 })
      (fun t => (t.phase, t.sck, t.err)) = some (.clkHi, true, .none) := by decide
theorem test_timeout_of_zero :
    look (step { busyState .waitRdy .readRaw 1 0 0 [cyc .idle true] with timeoutUs := 0 })
      (fun t => (t.phase, t.err, t.done)) = some (.idle, .timeout, true) := by decide
theorem test_hold_ends :
    look (step { busyState .pdHold .nop 0 0 0 [cyc .idle true] with pdholdUs := 4, cnt := 3, nsel := 1 })
      (fun t => (t.pwr, t.nsel, t.done, t.sck)) = some (false, 0, true, true) := by decide
theorem test_assemble_setscale : assemble (.setScale 0x4000000000000000) =
    some [.wr .scaleStgLo 0x00000000, .wr .scaleStgHi 0x40000000, .wr .cmd 0x00000009] := by decide
theorem test_assemble_refuses : assemble (.cmd (.configure 100 .polling false)) = none ∧
    assemble (.cmd (.tare 0)) = none ∧ assemble (.cmd (.readAvg 65536)) = none := by decide

/-! ## Witnesses: for each statement with hypotheses, a state and operands that meet all of them -/

/-- A cycle under reset. -/
def rstCycle : CycleInput := { access := .idle, dout := true, lineErr := false, rst := true }

/-- A cycle with a line fault. -/
def faultCycle : CycleInput := { access := .idle, dout := true, lineErr := true, rst := false }

/-- The parameter set of R6's defaults with the `line_err` input. -/
def withLineErr : Config := { cycPerUs := 1, tHigh := 1, tLow := 1, hasLineErr := true, base := 0, legal := by decide }

theorem witness_ResetEdge : (idleState [rstCycle]).currentInput.rst = true := rfl

theorem witness_DecodeOfEncode :
    (Instr.configure 3 .debounced true).WellFormed ∧ (Instr.tare 0).WellFormed ∧ (Instr.tare 65535).WellFormed := by decide

theorem witness_EncodeOfDecode : decode 0xFFFFFFFF = .ok (.reservedF 0xFFFFFFF) := rfl

theorem witness_idle : State.reset.phase = .idle := rfl

theorem witness_BusyWrites :
    (busyState .clkHi .readRaw 1 0 0 []).phase ≠ .idle ∧
    ¬((0x0000000A : Word) = 0x0000000A ∧ (busyState .clkHi .readRaw 1 0 0 []).phase = .waitRdy) ∧
    ¬((0x00000002 : Word) = 0x0000000A ∧ (busyState .waitRdy .readRaw 1 0 0 []).phase = .waitRdy) ∧
    (0x3C : BitVec 8) ∈ ([0x30, 0x34, 0x38, 0x3C] : List (BitVec 8)) := by decide

/-- REJ is cleared where a command word is written while idle. -/
theorem witness_RejCleared :
    look (step { idleState [cyc (.write 0x00 0x00000000) true] with rej := true }) (fun t => t.rej) = some false := by decide

theorem witness_NopIllegal : specOp 0x00000010 = 0 ∧ (0x00000010 : Word) ≠ 0 := by decide

theorem witness_SetScale_copies :
    State.reset.phase = .idle ∧ State.reset.scaleStg.extractLsb' 52 11 ≠ 0x7FF ∧ State.reset.scaleStg.extractLsb' 0 63 ≠ 0 := by
  decide

theorem witness_SetScale_refuses :
    (0x7FF0000000000000 : DWord).extractLsb' 52 11 = 0x7FF ∧ (0x8000000000000000 : DWord).extractLsb' 0 63 = 0 := by decide

theorem witness_ConversionsAccepted :
    State.reset.phase = .idle ∧ State.reset.pwr = true ∧ 1 ≤ 1 ∧ 1 ≤ 65535 ∧ 65535 ≤ 65535 ∧
    State.pwrap { State.reset with pwr := false, pwrap := true } = true := by decide

theorem witness_ConversionsGated :
    State.phase { State.reset with pwr := false, sck := true } = .idle ∧
    State.pwr { State.reset with pwr := false, sck := true } = false ∧
    State.pwrap { State.reset with pwr := false, sck := true } = false := by decide

theorem witness_Abort :
    (busyState .waitRdy .readRaw 1 0 0 []).phase = .waitRdy ∧ State.reset.phase = .idle ∧
    (busyState .recoverLo .readRaw 1 0 0 []).phase ≠ .waitRdy ∧ (busyState .recoverLo .readRaw 1 0 0 []).phase ≠ .idle := by
  decide

theorem witness_BusWrite : 4 ≤ (0x04 : BitVec 8).toNat ∧ 4 ≤ (0x3F : BitVec 8).toNat ∧ 4 ≤ (0xFF : BitVec 8).toNat := by decide

theorem witness_Unmapped : 0x40 ≤ (0x40 : BitVec 8).toNat ∧ 0x40 ≤ (0xFF : BitVec 8).toNat := by decide

theorem witness_ReadsHaveNoSideEffect :
    (idleState [cyc (.read 0x04) true]).inputs = { cyc .idle true with access := .read 0x04, rst := false } :: [] ∧
    ∃ t, step { idleState [cyc (.read 0x04) true] with
      inputs := [{ cyc .idle true with access := .idle, rst := false }] } = .next t := ⟨rfl, _, rfl⟩

theorem witness_IdleStep :
    (idleState [cyc (.write 0x03 0x00000007) true]).phase = .idle ∧
    (idleState [cyc (.write 0x03 0x00000007) true]).currentInput.rst = false ∧
    (idleState [cyc (.write 0x03 0x00000007) true]).currentInput.access = .write 0x03 0x00000007 ∧
    (0x03 : BitVec 8).toNat < 4 ∧ decode 0x00000007 = .ok .powerUp ∧
    ∃ t, exec .powerUp (idleState [cyc (.write 0x03 0x00000007) true]) = .next t :=
  ⟨rfl, rfl, rfl, by decide, rfl, _, rfl⟩

/-- Writes while idle that are no command: a staging word, a timing register, an unmapped offset, and a word with a stray bit. -/
theorem witness_IdleStep_write :
    look (step (idleState [cyc (.write 0x28 0x00000005) true])) (fun t => t.scaleStg) = some 0x3FF0000000000005 ∧
    look (step (idleState [cyc (.write 0x3C 0x00000004) true])) (fun t => t.pdholdUs) = some 4 ∧
    look (step (idleState [cyc (.write 0xFF 0x00000004) true])) (fun t => t.rej) = some false ∧
    look (step (idleState [cyc (.write 0x00 0x00000131) true])) (fun t => t.err) = some .illegal := by decide

/-- Writes while busy that are no accepted ABORT: ABORT's word at another offset, and a word with a stray bit. -/
theorem witness_BusyStep_write :
    ¬((0x04 : BitVec 8).toNat < 4 ∧ (0x0000000A : Word) = 0x0000000A ∧
      (busyState .waitRdy .read 1 0 0 []).phase = .waitRdy) ∧
    look (step (busyState .waitRdy .read 1 0 0 [cyc (.write 0x04 0x0000000A) true])) (fun t => (t.phase, t.rej)) =
      some (.waitRdy, false) ∧
    look (step (busyState .clkHi .read 1 0 0 [cyc (.write 0x03 0x0000001A) true])) (fun t => (t.phase, t.rej)) =
      some (.clkLo, true) := by decide

theorem witness_BusyStep_abort :
    (busyState .waitRdy .read 1 0 0 [cyc (.write 0x00 0x0000000A) true]).currentInput.access = .write 0x00 0x0000000A ∧
    (busyState .waitRdy .read 1 0 0 [cyc (.write 0x00 0x0000000A) true]).currentInput.rst = false ∧
    decode 0x0000000A = .ok .abort ∧
    ∃ t, exec .abort (busyState .waitRdy .read 1 0 0 [cyc (.write 0x00 0x0000000A) true]) = .next t :=
  ⟨rfl, rfl, rfl, _, rfl⟩

theorem witness_BusyStep_other :
    (busyState .clkHi .read 1 0 0 [cyc (.write 0x00 0x00000000) true]).currentInput.access = .write 0x00 0x00000000 ∧
    decode 0x00000000 = .ok .nop ∧
    ∃ t, exec .nop (busyState .clkHi .read 1 0 0 [cyc (.write 0x00 0x00000000) true]) = .next t ∧
      ∃ u, phaseStep .clkHi (cyc (.write 0x00 0x00000000) true) t = .next u :=
  ⟨rfl, rfl, _, rfl, _, rfl⟩

theorem witness_PlacedWord :
    State.reset.phase = .idle ∧ decodeTableWord 32 0x00000008 = some .powerDown ∧
    ∃ t, exec .powerDown (State.reset.withFetchWord 32 0x00000008) = .next t := ⟨rfl, rfl, _, rfl⟩

theorem witness_quiet : (idleState [cyc (.read 0x04) true]).phase = .idle ∧ quietCycle (idleState [cyc (.read 0x04) true]) :=
  ⟨rfl, rfl, rfl⟩

theorem witness_SinceLast_counts :
    (idleState [cyc .idle true]).currentInput.rst = false ∧ ¬transactionEnds (idleState [cyc .idle true]) ∧
    ∃ t, step (idleState [cyc .idle true]) = .next t := ⟨rfl, fun h => absurd h.1 (by decide), _, rfl⟩

/-- The last edge of a transaction whose command goes on, and one whose command ends. -/
theorem witness_transactionEnds :
    transactionEnds (busyState .clkLo .tare 2 0 24 [cyc .idle true]) ∧
    quietCycle (busyState .clkLo .tare 2 0 24 [cyc .idle true]) ∧
    (busyState .clkLo .tare 2 0 24 [cyc .idle true]).nconv.toNat + 1 <
      (busyState .clkLo .tare 2 0 24 [cyc .idle true]).times.toNat ∧
    transactionEnds (lastLow .readRaw 1 0 5 0 0x3FF0000000000000) ∧
    quietCycle (lastLow .readRaw 1 0 5 0 0x3FF0000000000000) ∧
    ∃ t, step (lastLow .readRaw 1 0 5 0 0x3FF0000000000000) = .next t := by
  refine ⟨⟨rfl, rfl, rfl, ?_⟩, ⟨rfl, rfl⟩, ?_, ⟨rfl, rfl, rfl, ?_⟩, ⟨rfl, rfl⟩, _, rfl⟩ <;> decide

theorem witness_BusyHostAccess :
    (busyState .waitRdy .read 1 0 0 [cyc (.write 0x00 0x00000002) true]).phase ≠ .idle ∧
    (busyState .waitRdy .read 1 0 0 [cyc (.write 0x00 0x00000002) true]).inputs = [cyc (.write 0x00 0x00000002) true] ∧
    (busyState .waitRdy .read 1 0 0 []).acceptsAbort (.write 0x00 0x00000002) = false ∧
    ∃ t, step (busyState .waitRdy .read 1 0 0 [cyc .idle true]) = .next t := ⟨by decide, rfl, rfl, _, rfl⟩

/-- A busy step takes a staging write, sets REJ for a discarded write, and yields the data of a read; under reset it does none of it. -/
theorem witness_BusyHostAccess_takes :
    look (step (busyState .clkHi .read 1 0 0 [cyc (.write 0x2C 0x40000000) true])) (fun t => (t.scaleStg, t.rej)) =
      some (0x4000000000000000, false) ∧
    look (step (busyState .clkHi .read 1 0 0 [cyc (.write 0x30 0x00000009) true])) (fun t => (t.rej, t.timeoutUs)) =
      some (true, 1000000) ∧
    look (step (busyState .clkHi .read 1 0 0 [cyc (.read 0x38) true])) (fun t => t.rdata) = some (some 1000) ∧
    (busyState .clkHi .read 1 0 0 [rstCycle]).phase ≠ .idle ∧ rstCycle.rst = true := by decide

theorem witness_waiting :
    (busyState .waitRdy .read 1 0 0 [cyc .idle false]).phase = .waitRdy ∧
    quietCycle (busyState .waitRdy .read 1 0 0 [cyc .idle false]) := ⟨rfl, rfl, rfl⟩

theorem witness_HighHalf :
    (busyState .clkHi .read 1 0 23 [cyc .idle false]).phase = .clkHi ∧
    quietCycle (busyState .clkHi .read 1 0 23 [cyc .idle false]) := ⟨rfl, rfl, rfl⟩

theorem witness_LowHalf :
    (busyState .clkLo .read 1 0 23 [cyc .idle false]).phase = .clkLo ∧
    quietCycle (busyState .clkLo .read 1 0 23 [cyc .idle false]) ∧
    ¬transactionEnds (busyState .clkLo .read 1 0 23 [cyc .idle false]) :=
  ⟨rfl, ⟨rfl, rfl⟩, fun h => absurd h.2.2.2 (by decide)⟩

/-- States at the end of the last transaction of a command meet the invariant. -/
theorem witness_inv_lastLow :
    (lastLow .readRaw 1 0 5 8388608 0x3FF0000000000000).Inv ∧
    (lastLow .readRawAvg 3 1 5 (-8388607) 0x3FF0000000000000).Inv ∧
    (lastLow .read 1 0 0x800000 0 0xBFF0000000000000).Inv ∧ (lastLow .readAvg 65535 0 5 0 0x3FF0000000000000).Inv ∧
    (lastLow .tare 1 0 0x7FFFFF 0 0x3FF0000000000000).Inv := by
  refine ⟨?_, ?_, ?_, ?_, ?_⟩ <;>
    exact { sck_level := by decide, busy_status := by decide, conv_op := by decide, conv_count := by decide
            conv_single := by decide, conv_pulses := by decide, conv_acc := by decide, pulse_index := by decide
            powered := by decide, unpowered := by decide, nsel_unpowered := by decide, nsel_hasPrev := by decide
            offset_range := by decide, sample_range := by decide, resultInt_range := by decide
            scale_divisor := by decide, result_notNaN := by decide, counter := Nat.zero_lt_one }

theorem witness_lastLow_ends (op : Opcode) (k : DWord) :
    transactionEnds (lastLow op 1 0 5 0 k) ∧ quietCycle (lastLow op 1 0 5 0 k) ∧ (lastLow op 1 0 5 0 k).op = op ∧
    (lastLow op 1 0 5 0 k).nconv.toNat + 1 = (lastLow op 1 0 5 0 k).times.toNat := by
  refine ⟨⟨rfl, rfl, rfl, ?_⟩, ⟨rfl, rfl⟩, rfl, rfl⟩
  show 23 + (1 : BitVec 2).toNat ≤ (24 : BitVec 5).toNat
  decide

theorem witness_LineFault :
    State.phase { busyState .clkLo .read 1 0 24 [faultCycle] with cfg := withLineErr } = .clkLo ∧
    quietCycle { busyState .clkLo .read 1 0 24 [faultCycle] with cfg := withLineErr } ∧
    withLineErr.hasLineErr = true ∧ faultCycle.lineErr = true ∧ faultCycle.rst = false := ⟨rfl, ⟨rfl, rfl⟩, rfl, rfl, rfl⟩

/-- A hold of 100 cycles in its last cycle and in the one before, and a settle delay of 1000 in the same. -/
theorem witness_PowerPhases :
    let s (p : Phase) (c : BitVec 64) : State := { busyState p .read 1 0 0 [cyc .idle true] with cnt := c }
    quietCycle (s .pdHold 99) ∧ max 1 ((s .pdHold 99).pdholdUs.toNat * (s .pdHold 99).cfg.cycPerUs) ≤ (s .pdHold 99).cnt.toNat + 1 ∧
    ¬(max 1 ((s .wrapHi 98).pdholdUs.toNat * (s .wrapHi 98).cfg.cycPerUs) ≤ (s .wrapHi 98).cnt.toNat + 1) ∧
    max 1 ((s .wrapLo 999).settleUs.toNat * (s .wrapLo 999).cfg.cycPerUs) ≤ (s .wrapLo 999).cnt.toNat + 1 ∧
    ¬(max 1 ((s .recoverLo 998).settleUs.toNat * (s .recoverLo 998).cfg.cycPerUs) ≤ (s .recoverLo 998).cnt.toNat + 1) := by
  refine ⟨⟨rfl, rfl⟩, ?_, ?_, ?_, ?_⟩ <;> decide

theorem witness_RoundedDivision :
    1 ≤ 2 ∧ (2 : Int) ≠ rndDiv 3 1 ∧ (3 : Int) ≠ rndDiv 5 2 ∧
    |(rndDiv 5 2 : Rat) - ((5 : Int) : Rat) / (2 : Nat)| = |((3 : Int) : Rat) - ((5 : Int) : Rat) / (2 : Nat)| ∧
    -(2 ^ 23 : Rat) ≤ ((5 : Int) : Rat) / (2 : Nat) ∧ ((5 : Int) : Rat) / (2 : Nat) ≤ 2 ^ 23 - 1 := by
  have h : rndDiv 5 2 = 2 := by decide
  refine ⟨by decide, by decide, by decide, ?_, by norm_num, by norm_num⟩
  rw [h]; norm_num [abs_of_pos, abs_of_neg]

theorem witness_Rounding :
    (2 ^ 1024 - 2 ^ 970 : Rat) ≤ 2 ^ 1024 - 2 ^ 970 ∧ -(2 ^ 1024 - 2 ^ 970 : Rat) ≤ -(2 ^ 1024 - 2 ^ 970) ∧
    |(0 : Rat)| < 2 ^ 1024 - 2 ^ 970 ∧ |(1 : Int)| < 2 ^ 53 ∧ (-1074 : Int) ≤ -1074 ∧ (971 : Int) ≤ 971 := by
  refine ⟨le_refl _, le_refl _, ?_, by decide, le_refl _, le_refl _⟩
  rw [abs_zero, sub_pos]
  exact pow_lt_pow_right₀ (by norm_num) (by norm_num)

theorem witness_PowerOfTwoMeans :
    (16 : Nat) ≤ 16 ∧ |(2 ^ 23 * 2 ^ 16 : Int)| ≤ 2 ^ 23 * 2 ^ 16 ∧ |(-2 ^ 23 : Int)| ≤ 2 ^ 23 := by decide

/-- TARE 2 of the samples 5 and 5, and each of the other conversion commands under the OFFSET it leaves, another TARE among them. -/
theorem witness_TareUnderConstant_inv :
    (lastLow .tare 2 5 5 7 0x3FF0000000000000).Inv ∧ (lastLow .readRawAvg 3 10 5 (-5) 0x3FF0000000000000).Inv ∧
    (lastLow .readRaw 1 0 5 (-5) 0x3FF0000000000000).Inv ∧ (lastLow .read 1 0 5 (-5) 0xBFF0000000000000).Inv ∧
    (lastLow .readAvg 3 10 5 (-5) 0xBFF0000000000000).Inv ∧ (lastLow .tare 1 0 5 (-5) 0x3FF0000000000000).Inv := by
  refine ⟨?_, ?_, ?_, ?_, ?_, ?_⟩ <;>
    exact { sck_level := by decide, busy_status := by decide, conv_op := by decide, conv_count := by decide
            conv_single := by decide, conv_pulses := by decide, conv_acc := by decide, pulse_index := by decide
            powered := by decide, unpowered := by decide, nsel_unpowered := by decide, nsel_hasPrev := by decide
            offset_range := by decide, sample_range := by decide, resultInt_range := by decide
            scale_divisor := by decide, result_notNaN := by decide, counter := Nat.zero_lt_one }

theorem witness_TareUnderConstant_sums :
    (lastLow .tare 2 5 5 7 0x3FF0000000000000).acc.toInt + (lastLow .tare 2 5 5 7 0x3FF0000000000000).shreg.toInt =
      ((lastLow .tare 2 5 5 7 0x3FF0000000000000).times.toNat : Int) * 5 ∧
    (lastLow .readAvg 3 10 5 (-5) 0xBFF0000000000000).acc.toInt + (lastLow .readAvg 3 10 5 (-5) 0xBFF0000000000000).shreg.toInt =
      ((lastLow .readAvg 3 10 5 (-5) 0xBFF0000000000000).times.toNat : Int) * 5 ∧
    look (step (lastLow .tare 2 5 5 7 0x3FF0000000000000)) (fun t => t.offset) =
      some (lastLow .readAvg 3 10 5 (-5) 0xBFF0000000000000).offset := by decide

theorem witness_TareUnderConstant_count : 1 ≤ 10 := by decide

/-- A wait, a pulse in both halves, and an idle cycle meet the invariant. -/
theorem witness_inv_phases :
    (busyState .waitRdy .readRaw 1 0 0 [cyc .idle true]).Inv ∧ (busyState .clkHi .tare 65535 0 24 [cyc .idle true]).Inv ∧
    (busyState .clkLo .read 1 0 23 [cyc .idle true]).Inv := by
  refine ⟨?_, ?_, ?_⟩ <;>
    exact { sck_level := by decide, busy_status := by decide, conv_op := by decide, conv_count := by decide
            conv_single := by decide, conv_pulses := by decide, conv_acc := by decide, pulse_index := by decide
            powered := by decide, unpowered := by decide, nsel_unpowered := by decide, nsel_hasPrev := by decide
            offset_range := by decide, sample_range := by decide, resultInt_range := by decide
            scale_divisor := by decide, result_notNaN := by decide
            counter := by show _ < _; decide }

theorem witness_EveryStep : ∃ t, step (busyState .waitRdy .readRaw 1 0 0 [cyc .idle true]) = .next t := ⟨_, rfl⟩

theorem witness_EveryCommandEnds :
    (busyState .waitRdy .readRaw 1 0 0 [cyc .idle true]).phase ≠ .idle ∧
    (busyState .waitRdy .readRaw 1 0 0 [cyc .idle true]).cfg.cycPerUs < 2 ^ 32 ∧
    (busyState .waitRdy .readRaw 1 0 0 [cyc .idle true]).cfg.tLow ≤ 2 ^ 64 ∧
    ∀ inp ∈ (busyState .waitRdy .readRaw 1 0 0 [cyc .idle true]).inputs, inp.rst = false := by decide

/-- RESULT_INT, SAMPLE and NSEL change where READ_RAW completes. -/
theorem witness_ResultsChange :
    look (step (lastLow .readRaw 1 0 5 1 0x3FF0000000000000)) (fun t => (t.phase, t.resultInt, t.sample, t.nsel)) =
      some (.idle, 6, 5, 1) := by decide

/-- SCALE changes where a SET_SCALE word is written while idle. -/
theorem witness_ScaleChanges :
    look (step { idleState [cyc (.write 0x00 0x00000009) true] with scaleStg := 0xBFF0000000000000 })
      (fun t => (t.scale, t.done)) = some (0xBFF0000000000000, true) := by decide

/-- CONFIG changes where a CONFIGURE word is written while idle. -/
theorem witness_ConfigChanges :
    look (step (idleState [cyc (.write 0x00 0x00000091) true])) (fun t => (t.gain, t.pwrap)) = some (.g64, true) := by
  decide

/-- RESULT and OFFSET change where READ and TARE complete. -/
theorem witness_ResultAndOffsetChange :
    look (step (lastLow .read 1 0 450 0 0x3FF0000000000000)) (fun t => t.result) = some 0x407C200000000000 ∧
    look (step (lastLow .tare 1 0 5 0 0x3FF0000000000000)) (fun t => t.offset.toInt) = some (-5) := by decide +kernel

/-- PWR falls where a hold ends and rises where a settle delay ends. -/
theorem witness_PowerChanges :
    look (step { busyState .recoverHi .read 1 0 0 [cyc .idle true] with cnt := 99, nsel := 1 })
      (fun t => (t.pwr, t.nsel, t.phase)) = some (false, 0, .recoverLo) ∧
    look (step { busyState .puSettle .nop 0 0 0 [cyc .idle true] with cnt := 999, pwr := false })
      (fun t => (t.pwr, t.phase)) = some (true, .idle) := by decide

theorem witness_ClockingRuns :
    (busyState .clkLo .read 1 0 23 [cyc .idle true]).currentInput.rst = false ∧
    noLineFault (busyState .clkLo .read 1 0 23 [cyc .idle true]) ∧
    ¬transactionEnds (busyState .clkLo .read 1 0 23 [cyc .idle true]) ∧
    ∃ t, step (busyState .clkLo .read 1 0 23 [cyc .idle true]) = .next t :=
  ⟨rfl, rfl, fun h => absurd h.2.2.2 (by decide), _, rfl⟩

/-- DONE changes where a command word is written while idle. -/
theorem witness_StatusHolds :
    look (step (idleState [cyc (.write 0x00 0x00000000) true])) (fun t => t.done) = some true ∧
    (idleState [cyc (.write 0x00 0x00000000) true]).done = false := by decide

/-- The first high cycle of a transaction, with as many undisturbed cycles listed as its 25 pulses take. -/
def transactionStart : State := busyState .clkHi .readRaw 1 0 0 (List.replicate 50 (cyc .idle true))

/-- The first and the last cycle of its waveform, and the 48 cycles of its data pulses. -/
theorem witness_Transaction :
    transactionStart.phase = .clkHi ∧ transactionStart.sck = true ∧ transactionStart.cnt = 0 ∧ transactionStart.bitI = 0 ∧
    transactionStart.shreg = 0 ∧ 1 ≤ transactionStart.npulse.toNat ∧ transactionStart.cfg.cycPerUs < 2 ^ 32 ∧
    transactionStart.cfg.tLow ≤ 2 ^ 64 ∧
    0 < (24 + transactionStart.npulse.toNat) * (transactionStart.cfg.tHigh + transactionStart.cfg.tLow) ∧
    49 < (24 + transactionStart.npulse.toNat) * (transactionStart.cfg.tHigh + transactionStart.cfg.tLow) ∧
    49 ≤ transactionStart.inputs.length ∧
    24 * (transactionStart.cfg.tHigh + transactionStart.cfg.tLow) ≤ transactionStart.inputs.length ∧
    ∀ inp ∈ transactionStart.inputs, undisturbed transactionStart.cfg inp = true := by decide

/-- A READ_RAW write with DOUT low in its last wait cycle of two, and the 50 cycles of its transaction. -/
def readRawRest : List CycleInput := cyc .idle true :: cyc .idle false :: List.replicate 50 (cyc .idle true)

/-- The state in whose cycle READ_RAW is written; TIMEOUT_US is 2. -/
def readRawStart : State := { idleState (cyc (.write 0x00 0x00000002) true :: readRawRest) with timeoutUs := 2 }

theorem witness_inv_readRawStart : readRawStart.Inv where
  sck_level := by decide
  busy_status := by decide
  conv_op := by decide
  conv_count := by decide
  conv_single := by decide
  conv_pulses := by decide
  conv_acc := by decide
  pulse_index := by decide
  powered := by decide
  unpowered := by decide
  nsel_unpowered := by decide
  nsel_hasPrev := by decide
  offset_range := by decide
  sample_range := by decide
  resultInt_range := by decide
  scale_divisor := by decide
  result_notNaN := by decide
  counter := trivial

theorem witness_ReadRawFromWriteToResult :
    readRawStart.phase = .idle ∧ readRawStart.pwr = true ∧ readRawStart.pwrap = false ∧ readRawStart.rmode = .polling ∧
    readRawStart.cfg.cycPerUs < 2 ^ 32 ∧ readRawStart.cfg.tLow ≤ 2 ^ 64 ∧
    readRawStart.inputs = cyc (.write 0x00 0x00000002) true :: readRawRest ∧
    1 ≤ 2 ∧ 2 ≤ duration readRawStart.cfg readRawStart.timeoutUs ∧
    readRawRest.length =
      2 + (24 + (gainBits readRawStart.gain).toNat) * (readRawStart.cfg.tHigh + readRawStart.cfg.tLow) ∧
    (∀ inp ∈ readRawRest, undisturbed readRawStart.cfg inp = true ∧ quietAccess inp.access = true) ∧
    doutAt readRawRest 0 = true ∧ doutAt readRawRest (2 - 1) = false := by decide

theorem witness_PowerCommands :
    (idleState [cyc (.write 0x00 0x00000008) true]).phase = .idle ∧
    (idleState [cyc (.write 0x00 0x00000008) true]).cfg.cycPerUs < 2 ^ 32 ∧
    (idleState [cyc (.write 0x00 0x00000008) true]).inputs = cyc (.write 0x00 0x00000008) true :: [] ∧
    (cyc (.write 0x00 0x00000008) true).rst = false ∧
    (cyc (.write 0x00 0x00000008) true).access = .write 0x00 0x00000008 ∧
    (cyc (.write 0x00 0x00000007) true).access = .write 0x00 0x00000007 := by decide

/-- A wait of three cycles with DOUT high. -/
def waitStart : State :=
  { busyState .waitRdy .readRaw 1 0 0 (List.replicate 3 (cyc .idle true)) with timeoutUs := 3 }

theorem witness_WaitTimesOut :
    waitStart.phase = .waitRdy ∧ waitStart.wcnt = 0 ∧ waitStart.sck = false ∧ waitStart.cfg.cycPerUs < 2 ^ 32 ∧
    waitStart.inputs.length = duration waitStart.cfg waitStart.timeoutUs ∧
    ∀ inp ∈ waitStart.inputs, inp.rst = false ∧ inp.dout = true ∧ quietAccess inp.access = true := by decide

theorem witness_LineFaultRecovers :
    let s : State := { busyState .clkHi .read 1 0 24 [faultCycle] with cfg := withLineErr }
    s.phase = .clkHi ∧ s.cfg.cycPerUs < 2 ^ 32 ∧ s.cfg.hasLineErr = true ∧ s.currentInput.lineErr = true ∧
    ∀ inp ∈ s.inputs, inp.rst = false := by decide

theorem witness_PowerWrap :
    (busyState .wrapHi .read 1 0 0 []).phase = .wrapHi ∧ (busyState .wrapHi .read 1 0 0 []).cnt = 0 ∧
    (busyState .wrapHi .read 1 0 0 []).sck = true ∧ (busyState .wrapHi .read 1 0 0 []).cfg.cycPerUs < 2 ^ 32 ∧
    ∀ inp ∈ (busyState .wrapHi .read 1 0 0 []).inputs, inp.rst = false := by decide

theorem witness_Assembled :
    assembleCmd (.configure 32 .debounced true) = some (.configure 2 .debounced true) ∧
    assembleCmd (.configureGain 100) = none ∧ assembleCmd (.tare 65535) = some (.tare 65535) ∧
    assembleCmd (.readAvg 1) = some (.readAvg 1) ∧ assembleCmd (.readRawAvg 65536) = none := by decide

/-- R86's word of CONFIGURE gain 32, debounced, wrap, and its word of TARE 10, from the assembler. -/
theorem test_assemble_words :
    assemble (.cmd (.configure 32 .debounced true)) = some [.wr .cmd 0x000000E1] ∧
    assemble (.cmd .tareDefault) = some [.wr .cmd 0x000A0006] := by decide

end Sys2Proof.Machine.Tests
end

section
/-! # The state family: reset, the register words, who writes what, and the invariant (10_state.md)

The facts come first, in the order of the definitions they speak of; the obligations are settled from them at the end. -/

namespace Sys2Proof.Machine

/-! ## The register map at its edges -/

theorem toNat_extract_registerIndex (off : BitVec 8) : (off.extractLsb' 2 6).toNat = off.toNat / 4 := by
  have := off.isLt
  rw [BitVec.extractLsb'_toNat, Nat.shiftRight_eq_div_pow]
  omega

/-- Every offset from 0x40 up is unmapped (R34). -/
theorem regAt_unmapped {off : BitVec 8} (h : 0x40 ≤ off.toNat) : regAt off = none := by
  have hi := toNat_extract_registerIndex off
  unfold regAt
  split
  case h_17 => rfl
  all_goals omega

/-- CMD is at the offsets 0 to 3 (R22, R62). -/
theorem regAt_cmd_iff {off : BitVec 8} : regAt off = some .cmd ↔ off.toNat < 4 := by
  have hi := toNat_extract_registerIndex off
  constructor
  · intro h
    unfold regAt at h
    split at h
    case h_1 h0 => omega
    all_goals cases h
  · intro h
    rw [Nat.div_eq_of_lt h] at hi
    simp only [regAt, hi]

/-! ## Command words -/

/-- The low four bits of a word are the code of its opcode (R80, R81). -/
theorem specOp_eq_code (w : Word) : specOp w = (opField w).code.toNat := by
  have hc : ∀ c : BitVec 4, (Opcode.ofCode c).code = c := by decide
  rw [opField, hc, BitVec.extractLsb'_toNat]
  simp [specOp]

/-- The only word that decodes to SET_SCALE. -/
theorem decode_setScale_iff {w : Word} : decode w = .ok .setScale ↔ w = 0x00000009 := by
  constructor
  · intro h
    obtain ⟨hm, -⟩ := decode_ok_iff.1 h
    rwa [show (Instr.setScale.opcode).mask = 0xFFFFFFFF from rfl, word_and_full] at hm
  · rintro rfl; rfl

theorem decode_of_decodeTableWord {n w : Nat} {i : Instr} (h : decodeTableWord n w = some i) :
    decode (tableWord n w) = .ok i := by
  unfold decodeTableWord at h
  split at h
  · rename_i hd
    rw [hd, Option.some.inj h]
  · cases h

/-- A write of a command's word to CMD is `exec` of the command (R22, R62, R200). -/
theorem hostAccess_write_cmd {s : State} {off : BitVec 8} {w : Word} {i : Instr} (hoff : off.toNat < 4)
    (hd : decode w = .ok i) : hostAccess (.write off w) s = exec i s := by
  simp only [hostAccess, busWrite, regAt_cmd_iff.2 hoff, writeCmd, hd]

/-! ## STATUS and CONFIG as numbers -/

theorem statusWord_toNat (s : State) (dout : Bool) : (s.statusWord dout).toNat =
    s.busy.toNat + 2 * s.done.toNat + 4 * (s.rdy dout).toNat + 8 * s.pwr.toNat + 16 * dout.toNat
      + 32 * s.rej.toNat + 64 * s.abt.toNat + 2 ^ 8 * (errCode s.err).toNat
      + 2 ^ 12 * (phaseCode s.phase).toNat + 2 ^ 16 * s.nsel.toNat := by
  simp only [State.statusWord, toNat_append_add, BitVec.toNat_ofBool, BitVec.toNat_ofNat]
  omega

theorem configWord_toNat (s : State) : s.configWord.toNat =
    (gainCode s.gain).toNat + 4 * (rmodeBit s.rmode).toNat + 8 * s.pwrap.toNat := by
  simp only [State.configWord, toNat_append_add, BitVec.toNat_ofBool, BitVec.toNat_ofNat]
  omega

theorem busy_toNat (s : State) : s.busy.toNat = if s.phase = .idle then 0 else 1 := by
  unfold State.busy
  split <;> simp_all

theorem rdy_toNat (s : State) (dout : Bool) :
    (s.rdy dout).toNat = if dout = false ∧ s.phase = .idle then 1 else 0 := by
  unfold State.rdy State.busy
  cases dout <;> split <;> simp_all

/-! ## The end of a cycle -/

/-- `since_last` counts up and stays at all ones (R114). -/
theorem tickSinceLast_eq (s : State) (b : Bool) : s.tickSinceLast b =
    { s with
      sinceLast := if b then 0 else if s.sinceLast = BitVec.allOnes 64 then s.sinceLast else s.sinceLast + 1 } := by
  have hmin : BitVec.ofNat 64 (min (s.sinceLast.toNat + 1) (2 ^ 64 - 1)) =
      if s.sinceLast = BitVec.allOnes 64 then s.sinceLast else s.sinceLast + 1 := by
    have hlt := s.sinceLast.isLt
    apply BitVec.eq_of_toNat_eq
    split
    case isTrue h => simp [h]
    case isFalse h =>
      have hne : s.sinceLast.toNat ≠ 2 ^ 64 - 1 := fun e => h (BitVec.eq_of_toNat_eq (by simpa using e))
      rw [BitVec.toNat_ofNat, BitVec.toNat_add, Nat.min_eq_left (by omega)]
      rfl
  rw [State.tickSinceLast, hmin]

/-- The end of a cycle not under reset is the statements' `cycleEnd`. -/
theorem advance_tickSinceLast {s : State} (hr : s.currentInput.rst = false) (u : State) (b : Bool) :
    s.advance s.currentInput (u.tickSinceLast b) = cycleEnd s u b := by
  rw [tickSinceLast_eq]
  simp only [State.advance, cycleEnd, hr, State.readData]
  cases s.currentInput.access <;> rfl

/-- The model's test for the end of a transaction is the statements' `transactionEnds` (R107). -/
theorem endsConversion_iff (s : State) : s.endsConversion s.currentInput = true ↔ transactionEnds s := by
  simp only [State.endsConversion, transactionEnds, noLineFault, State.lineFault, Bool.and_eq_true, Bool.not_eq_true',
    decide_eq_true_eq, decide_eq_false_iff_not, not_lt, and_assoc]

/-! ## Numeric ranges -/

theorem decode24_range (f : BitVec 24) : -(2 ^ 23 : Int) ≤ decode24 f ∧ decode24 f ≤ 2 ^ 23 - 1 := by
  have := f.isLt
  unfold decode24
  split <;> omega

/-- Integer bounds of a quotient bound its rounding too (R162). -/
theorem rndDiv_range {x lo hi : Int} {n : Nat} (hn : 1 ≤ n) (hlo : lo * n ≤ x) (hhi : x ≤ hi * n) :
    lo ≤ rndDiv x n ∧ rndDiv x n ≤ hi := by
  obtain ⟨h1, h2, -⟩ := rndDiv_spec x hn
  constructor
  · by_contra h
    have : rndDiv x n * n ≤ (lo - 1) * n := by
      apply mul_le_mul_of_nonneg_right <;> omega
    rw [sub_mul] at this
    omega
  · by_contra h
    have : (hi + 1) * n ≤ rndDiv x n * n := by
      apply mul_le_mul_of_nonneg_right <;> omega
    rw [add_mul] at this
    omega

/-- The rounded significand of R160 is at most 2^53, which is one unit more than 53 bits hold. -/
theorem rndDiv_significand_le (u : Nat) {d : Nat} (hd : 0 < d) :
    (rndDiv (u : Int) (d * 2 ^ (Nat.log2 (u / d) - 52))).toNat ≤ 2 ^ 53 := by
  generalize hsh : Nat.log2 (u / d) - 52 = sh
  have hn : 1 ≤ d * 2 ^ sh := Nat.mul_pos hd (Nat.two_pow_pos sh)
  have hu : u ≤ 2 ^ 53 * (d * 2 ^ sh) := by
    have hlog : u / d < 2 ^ (53 + sh) :=
      Nat.lt_log2_self.trans_le (Nat.pow_le_pow_right (by decide) (by omega))
    calc u ≤ 2 ^ (53 + sh) * d := ((Nat.div_lt_iff_lt_mul hd).1 hlog).le
      _ = 2 ^ 53 * (d * 2 ^ sh) := by rw [pow_add]; ring
  have hle : rndDiv (u : Int) (d * 2 ^ sh) ≤ 2 ^ 53 := by
    refine (rndDiv_range (lo := 0) hn (by simp) ?_).2
    exact_mod_cast hu
  omega

theorem log2_scaled_lt {n d a k : Nat} (h : n < 2 ^ a * d) (hak : 0 < a + k) :
    Nat.log2 (n * 2 ^ k / d) < a + k := by
  have hd : 0 < d := Nat.pos_of_mul_pos_left (Nat.zero_lt_of_lt h)
  have hq : n * 2 ^ k / d < 2 ^ (a + k) := by
    rw [Nat.div_lt_iff_lt_mul hd]
    calc n * 2 ^ k < 2 ^ a * d * 2 ^ k := Nat.mul_lt_mul_of_pos_right h (Nat.two_pow_pos k)
      _ = 2 ^ (a + k) * d := by rw [pow_add]; ring
  rcases Nat.eq_zero_or_pos (n * 2 ^ k / d) with h0 | h0
  · rw [h0]; simpa using hak
  · exact (Nat.log2_lt h0.ne').2 hq

/-- The magnitude RNE64 gives is at most infinity's (R160). -/
theorem rneMagnitude_le (n : Nat) {d : Nat} (hd : 0 < d) : rneMagnitude n d ≤ 0x7FF * 2 ^ 52 := by
  unfold rneMagnitude
  split
  case isTrue => exact le_rfl
  case isFalse h =>
    have hs := rndDiv_significand_le (n * 2 ^ 1074) hd
    have hn : n < 2 ^ 1024 * d := (Nat.lt_of_not_le h).trans_le (Nat.mul_le_mul_right d (Nat.sub_le _ _))
    have hl := log2_scaled_lt (k := 1074) hn (by decide)
    dsimp only
    omega

/-- A word whose magnitude is at most infinity's is no NaN (R67). -/
theorem isNaN_eq_false_of_le {b : DWord} (h : b.toNat % 2 ^ 63 ≤ 0x7FF * 2 ^ 52) : isNaN b = false := by
  have he : expField b = b.toNat / 2 ^ 52 % 2 ^ 11 := by
    rw [expField, BitVec.extractLsb'_toNat, Nat.shiftRight_eq_div_pow]
  have hf : fracField b = b.toNat % 2 ^ 52 := by
    rw [fracField, BitVec.extractLsb'_toNat, Nat.shiftRight_eq_div_pow, pow_zero, Nat.div_one]
  simp only [isNaN, Bool.and_eq_false_iff, decide_eq_false_iff_not, not_not, he, hf]
  omega

theorem isNaN_rne64 (q : Rat) : isNaN (rne64 q) = false := by
  have hm := rneMagnitude_le q.num.natAbs q.den_pos
  apply isNaN_eq_false_of_le
  unfold rne64
  dsimp only
  generalize rneMagnitude q.num.natAbs q.den = m at hm
  split <;> rw [BitVec.toNat_ofNat] <;> omega

/-! ## Counters -/

theorem duration_pos (c : Config) (x : Word) : 0 < duration c x := by simp [duration]

theorem tHigh_pos (c : Config) : 0 < c.tHigh := c.legal.2.1

theorem tLow_pos (c : Config) : 0 < c.tLow := c.legal.2.2.2

/-- A counter that has not reached a bound is below it after one more cycle. -/
theorem toNat_succ_lt {c : BitVec 64} {d : Nat} (h : c.toNat + 1 < d) : (c + 1).toNat < d := by
  rw [BitVec.toNat_add]
  exact (Nat.mod_le _ _).trans_lt h

/-! ## The invariant's parts

`State.Inv` is split into what speaks of no phase, what holds in the conversion phases, and the flags of a command
in progress. Each part is kept by an update that does not touch its fields, so a step says only what it changes. -/

/-- The part of the invariant that speaks of no phase: NSEL and the data registers. -/
structure State.DataInv (s : State) : Prop where
  nsel_unpowered : s.pwr = false → s.nsel = 0
  nsel_hasPrev : s.nsel ≠ 0 → s.hasPrev = true
  offset_range : -(2 ^ 23 - 1 : Int) ≤ s.offset.toInt ∧ s.offset.toInt ≤ 2 ^ 23
  sample_range : -(2 ^ 23 : Int) ≤ s.sample.toInt ∧ s.sample.toInt ≤ 2 ^ 23 - 1
  resultInt_range : -(2 ^ 24 - 1 : Int) ≤ s.resultInt.toInt ∧ s.resultInt.toInt ≤ 2 ^ 24 - 1
  scale_divisor : finiteNonzero s.scale = true
  result_notNaN : isNaN s.result = false

/-- The part of the invariant that holds in the conversion phases. -/
structure State.ConvInv (s : State) : Prop where
  conv_op : convOpcode s.op = true
  conv_count : s.nconv.toNat < s.times.toNat
  conv_single : s.op = .readRaw ∨ s.op = .read → s.times = 1
  conv_pulses : s.npulse = gainBits s.gain
  conv_acc : -(2 ^ 23 : Int) * s.nconv.toNat ≤ s.acc.toInt ∧ s.acc.toInt ≤ (2 ^ 23 - 1 : Int) * s.nconv.toNat

/-- The flags a command in progress has cleared (R145, R182, R183). -/
def State.StatusClear (s : State) : Prop := s.done = false ∧ s.err = .none ∧ s.abt = false

theorem State.Inv.data {s : State} (h : s.Inv) : s.DataInv := { h with }

theorem State.Inv.conv {s : State} (h : s.Inv) (hp : convPhase s.phase = true) : s.ConvInv :=
  ⟨h.conv_op hp, h.conv_count hp, h.conv_single hp, h.conv_pulses hp, h.conv_acc hp⟩

theorem State.Inv.status {s : State} (h : s.Inv) (hp : s.phase ≠ .idle) : s.StatusClear := h.busy_status hp

/-- SCK in a phase, by the column of R41. -/
theorem State.Inv.sck_at {s : State} (h : s.Inv) {p : Phase} (hp : s.phase = p) : s.sck = sckLevel p s.pwr :=
  hp ▸ h.sck_level

@[simp] theorem inv_marked {s : State} {r : Bool} {k : DWord} {l : List CycleInput} : (s.marked r k l).Inv ↔ s.Inv :=
  ⟨fun h => { h with }, fun h => { h with }⟩

@[simp] theorem inv_tickSinceLast {s : State} {b : Bool} : (s.tickSinceLast b).Inv ↔ s.Inv :=
  ⟨fun h => { h with }, fun h => { h with }⟩

@[simp] theorem inv_advance {s t : State} {inp : CycleInput} : (s.advance inp t).Inv ↔ t.Inv :=
  ⟨fun h => { h with }, fun h => { h with }⟩

/-! ## Building the invariant from its parts -/

/-- An idle state meets the invariant where its data do and SCK has the level of PWR (R41). -/
theorem State.DataInv.inv_of_idle {s : State} (hd : s.DataInv) (hp : s.phase = .idle) (hk : s.sck = !s.pwr) : s.Inv where
  sck_level := by rw [hp]; exact hk
  busy_status h := absurd hp h
  conv_op := by simp [hp, convPhase]
  conv_count := by simp [hp, convPhase]
  conv_single := by simp [hp, convPhase]
  conv_pulses := by simp [hp, convPhase]
  conv_acc := by simp [hp, convPhase]
  pulse_index := by simp [hp]
  powered := by simp [hp]
  unpowered := by simp [hp]
  counter := by simp [State.counterInRange, hp]
  __ := hd

theorem State.DataInv.inv_complete {s : State} (hd : s.DataInv) (hk : s.sck = !s.pwr) (e : ErrCode) :
    (s.complete e).Inv :=
  State.DataInv.inv_of_idle { hd with } rfl hk

/-- A busy state meets the invariant where its parts do. The default proofs serve the phases that ask nothing of the
conversion, the pulse index or PWR. -/
theorem State.DataInv.inv_of_busy {s : State} (hd : s.DataInv) (hst : s.StatusClear)
    (hk : s.sck = sckLevel s.phase s.pwr) (hcnt : s.counterInRange)
    (hconv : convPhase s.phase = true → s.ConvInv := by simp [convPhase])
    (hbit : s.phase = .clkHi ∨ s.phase = .clkLo → s.bitI.toNat ≤ 23 + s.npulse.toNat := by simp)
    (hup : s.phase = .waitRdy ∨ s.phase = .clkHi ∨ s.phase = .clkLo ∨ s.phase = .recoverHi → s.pwr = true := by simp)
    (hdown : s.phase = .wrapLo ∨ s.phase = .recoverLo → s.pwr = false := by simp) : s.Inv where
  sck_level := hk
  busy_status _ := hst
  conv_op h := (hconv h).conv_op
  conv_count h := (hconv h).conv_count
  conv_single h := (hconv h).conv_single
  conv_pulses h := (hconv h).conv_pulses
  conv_acc h := (hconv h).conv_acc
  pulse_index := hbit
  powered := hup
  unpowered := hdown
  counter := hcnt
  __ := hd

/-- Counting on in the current phase keeps the invariant while the counter is in range. -/
theorem State.Inv.counted {s : State} (h : s.Inv) {c w : BitVec 64}
    (hc : State.counterInRange { s with cnt := c, wcnt := w }) : State.Inv { s with cnt := c, wcnt := w } :=
  { h with counter := hc }

/-- A power-down clears the selection (R42). -/
theorem State.DataInv.power_down {s : State} (hd : s.DataInv) : State.DataInv { s with pwr := false, nsel := 0 } :=
  { hd with nsel_unpowered := fun _ => rfl, nsel_hasPrev := fun h0 => absurd rfl h0 }

theorem State.DataInv.power_up {s : State} (hd : s.DataInv) : State.DataInv { s with pwr := true } :=
  { hd with nsel_unpowered := nofun }

/-- A conversion begun with the power-wrap prologue, or straight in the wait of a powered chip, meets the invariant
(R102). -/
theorem State.DataInv.inv_beginConv {s : State} (hd : s.DataInv) (hst : s.StatusClear) (hc : s.ConvInv)
    (hpwr : s.pwr = true ∨ s.pwrap = true) : s.beginConv.Inv := by
  unfold State.beginConv
  split
  case isTrue => exact State.DataInv.inv_of_busy { hd with } hst rfl (duration_pos _ _) (fun _ => { hc with })
  case isFalse hw =>
    exact State.DataInv.inv_of_busy { hd with } hst rfl (duration_pos _ _) (fun _ => { hc with })
      (hup := fun _ => hpwr.resolve_right hw)

/-! ## Reset and the host's accesses keep the invariant -/

theorem inv_reset : State.reset.Inv :=
  State.DataInv.inv_of_idle
    { nsel_unpowered := nofun
      nsel_hasPrev := fun h => absurd rfl h
      offset_range := by decide
      sample_range := by decide
      resultInt_range := by decide
      scale_divisor := by decide
      result_notNaN := by decide } rfl rfl

theorem inv_applyReset (s : State) : s.applyReset.Inv := { inv_reset with }

/-- Whatever a command leaves while idle meets the invariant. -/
theorem IdleOutcome.inv {i : Instr} {s t : State} (ho : IdleOutcome i s t) (hs : s.phase = .idle) (h : s.Inv) : t.Inv := by
  cases ho with
  | unchanged ht => rw [ht]; exact h
  | atOnce g r p k e ht hc hk =>
    have hf : finiteNonzero k = true := by
      by_cases he : k = s.scale
      · rw [he]; exact h.scale_divisor
      · obtain ⟨-, -, -, hf⟩ := hk he
        exact hf
    rw [ht]
    refine State.DataInv.inv_complete ?_ ?_ e
    · exact { h.data with scale_divisor := hf }
    · exact h.sck_at hs
  | power l p ht hp =>
    rw [ht]
    rcases hp with ⟨rfl, rfl⟩ | ⟨rfl, rfl⟩
    all_goals exact State.DataInv.inv_of_busy { h.data with } ⟨rfl, rfl, rfl⟩ rfl (duration_pos _ _)
  | conversion op n ht hp hn ho =>
    rw [ht]
    refine State.DataInv.inv_beginConv { h.data with } ⟨rfl, rfl, rfl⟩ ?_ hp
    constructor
    case conv_op => rcases ho with ⟨rfl, -⟩ | ⟨rfl, -⟩ | rfl | rfl | rfl <;> rfl
    case conv_count => exact Nat.pos_of_ne_zero fun h0 => hn (BitVec.eq_of_toNat_eq h0)
    case conv_single => rcases ho with ⟨rfl, h1⟩ | ⟨rfl, h1⟩ | rfl | rfl | rfl <;> simp_all
    case conv_pulses => rfl
    case conv_acc => simp

theorem hostAccess_idle_inv {a : HostAccess} {s t : State} (hs : s.phase = .idle) (h : s.Inv)
    (ht : hostAccess a s = .next t) : t.Inv := by
  rcases hostAccess_idle_cases hs ht with ⟨_, _, _, _, _, rfl⟩ | ⟨off, v, -, -, ⟨i, -, hi⟩ | rfl⟩
  · exact State.DataInv.inv_of_idle { h.data with } hs (h.sck_at hs)
  · exact (exec_idle_cases hs hi).inv hs h
  · refine State.DataInv.inv_complete ?_ ?_ _
    · exact { h.data with }
    · exact h.sck_at hs

/-- An accepted ABORT ends the wait (R185): the chip is powered there, so SCK has its idle level. -/
theorem inv_aborted {s : State} (h : s.Inv) (hp : s.phase = .waitRdy) :
    (State.complete { s with abt := true } .timeout).Inv := by
  have hpwr : s.pwr = true := h.powered (.inl hp)
  refine State.DataInv.inv_complete ?_ ?_ _
  · exact { h.data with }
  · simpa [sckLevel, hpwr] using h.sck_at hp

/-! ## Each phase step keeps the invariant -/

section
variable {s : State} (h : s.Inv)
include h

theorem pdHoldStep_inv (hp : s.phase = .pdHold) : (pdHoldStep s).Inv := by
  unfold pdHoldStep
  split
  case isTrue => exact h.data.power_down.inv_complete (h.sck_at hp) _
  case isFalse hc =>
    exact h.counted (by simpa only [State.counterInRange, hp] using toNat_succ_lt (Nat.lt_of_not_le hc))

theorem puSettleStep_inv (hp : s.phase = .puSettle) : (puSettleStep s).Inv := by
  unfold puSettleStep
  split
  case isTrue => exact h.data.power_up.inv_complete (h.sck_at hp) _
  case isFalse hc =>
    exact h.counted (by simpa only [State.counterInRange, hp] using toNat_succ_lt (Nat.lt_of_not_le hc))

theorem wrapHiStep_inv (hp : s.phase = .wrapHi) : (wrapHiStep s).Inv := by
  have hconv := h.conv (by rw [hp]; rfl)
  unfold wrapHiStep
  split
  case isTrue =>
    exact State.DataInv.inv_of_busy { h.data.power_down with } (h.status (by simp [hp])) rfl (duration_pos _ _)
      (fun _ => { hconv with })
  case isFalse hc =>
    exact h.counted (by simpa only [State.counterInRange, hp] using toNat_succ_lt (Nat.lt_of_not_le hc))

theorem wrapLoStep_inv (hp : s.phase = .wrapLo) : (wrapLoStep s).Inv := by
  have hconv := h.conv (by rw [hp]; rfl)
  unfold wrapLoStep
  split
  case isTrue =>
    exact State.DataInv.inv_of_busy { h.data.power_up with } (h.status (by simp [hp])) (h.sck_at hp) (duration_pos _ _)
      (fun _ => { hconv with })
  case isFalse hc =>
    exact h.counted (by simpa only [State.counterInRange, hp] using toNat_succ_lt (Nat.lt_of_not_le hc))

theorem recoverHiStep_inv (hp : s.phase = .recoverHi) : (recoverHiStep s).Inv := by
  unfold recoverHiStep
  split
  case isTrue =>
    exact State.DataInv.inv_of_busy { h.data.power_down with } (h.status (by simp [hp])) rfl (duration_pos _ _)
  case isFalse hc =>
    exact h.counted (by simpa only [State.counterInRange, hp] using toNat_succ_lt (Nat.lt_of_not_le hc))

theorem recoverLoStep_inv (hp : s.phase = .recoverLo) : (recoverLoStep s).Inv := by
  unfold recoverLoStep
  split
  case isTrue => exact h.data.power_up.inv_complete (h.sck_at hp) _
  case isFalse hc =>
    exact h.counted (by simpa only [State.counterInRange, hp] using toNat_succ_lt (Nat.lt_of_not_le hc))

theorem waitRdyStep_inv (hp : s.phase = .waitRdy) (inp : CycleInput) : (waitRdyStep inp s).Inv := by
  have hpwr : s.pwr = true := h.powered (.inl hp)
  have hconv := h.conv (by rw [hp]; rfl)
  unfold waitRdyStep
  split_ifs with hr hc
  · exact State.DataInv.inv_of_busy { h.data with } (h.status (by simp [hp])) rfl (tHigh_pos _)
      (fun _ => { hconv with }) (hbit := by simp) (hup := fun _ => hpwr)
  · exact h.data.inv_complete (by simpa [sckLevel, hpwr] using h.sck_at hp) _
  · exact h.counted (by simpa only [State.counterInRange, hp] using toNat_succ_lt (Nat.lt_of_not_le hc))

/-- A line fault while clocking starts the recovery of a powered chip (R113). -/
theorem enterRecovery_inv (hp : s.phase = .clkHi ∨ s.phase = .clkLo) : s.enterRecovery.Inv :=
  State.DataInv.inv_of_busy { h.data with } (h.status (by rcases hp with hp | hp <;> simp [hp])) rfl (duration_pos _ _)
    (hup := fun _ => h.powered (.inr (hp.imp_right .inl)))

theorem clkHiStep_inv (hp : s.phase = .clkHi) (inp : CycleInput) : (clkHiStep inp s).Inv := by
  have hconv := h.conv (by rw [hp]; rfl)
  have hlt : s.cnt.toNat < s.cfg.tHigh := by simpa only [State.counterInRange, hp] using h.counter
  unfold clkHiStep
  split_ifs with hf hc
  · exact enterRecovery_inv h (.inl hp)
  · unfold State.sampleBit
    split
    all_goals
      exact State.DataInv.inv_of_busy { h.data with } (h.status (by simp [hp])) rfl (tLow_pos _)
        (fun _ => { hconv with }) (hbit := fun _ => h.pulse_index (.inl hp)) (hup := fun _ => h.powered (by simp [hp]))
  · exact h.counted (by simpa only [State.counterInRange, hp] using toNat_succ_lt (by omega))

end

/-! ## The end of a conversion keeps the invariant -/

theorem State.DataInv.convBookkeeping {s : State} (hd : s.DataInv) (hpwr : s.pwr = true) : s.convBookkeeping.DataInv where
  nsel_unpowered h := by simp [hpwr] at h
  nsel_hasPrev _ := rfl
  sample_range := by
    have hr := decode24_range s.shreg
    rw [State.convBookkeeping_sample, BitVec.toInt_ofInt_eq_self (by decide) (by omega) (by omega)]
    exact hr
  offset_range := hd.offset_range
  resultInt_range := hd.resultInt_range
  scale_divisor := hd.scale_divisor
  result_notNaN := hd.result_notNaN

/-- The accumulator of a conversion command never wraps (R40, R111). -/
theorem State.ConvInv.acc_convBookkeeping {s : State} (hc : s.ConvInv) :
    s.convBookkeeping.acc.toInt = s.acc.toInt + decode24 s.shreg := by
  have hr := decode24_range s.shreg
  have ha := hc.conv_acc
  have hn := s.nconv.isLt
  rw [State.convBookkeeping_acc, BitVec.toInt_ofInt_eq_self (by decide) (by omega) (by omega)]

theorem State.ConvInv.acc_range {s : State} (hc : s.ConvInv) :
    -(2 ^ 23 : Int) * (s.nconv.toNat + 1) ≤ s.convBookkeeping.acc.toInt ∧
      s.convBookkeeping.acc.toInt ≤ (2 ^ 23 - 1 : Int) * (s.nconv.toNat + 1) := by
  have hr := decode24_range s.shreg
  have ha := hc.conv_acc
  rw [hc.acc_convBookkeeping]
  omega

theorem State.ConvInv.convBookkeeping {s : State} (hc : s.ConvInv) (hn : s.nconv.toNat + 1 < s.times.toNat) :
    s.convBookkeeping.ConvInv := by
  have hnat : s.convBookkeeping.nconv.toNat = s.nconv.toNat + 1 := by
    have := s.times.isLt
    rw [State.convBookkeeping_nconv, BitVec.toNat_add]
    exact Nat.mod_eq_of_lt (by simp; omega)
  exact { hc with
    conv_count := by rw [hnat]; exact hn
    conv_acc := by rw [hnat]; exact_mod_cast hc.acc_range }

/-- A rounded result is no NaN (R160). -/
theorem State.DataInv.inv_complete_result {s : State} (hd : s.DataInv) (hk : s.sck = !s.pwr) (q : Rat) :
    (State.complete { s with result := rne64 q } .none).Inv := by
  refine State.DataInv.inv_complete ?_ ?_ _
  · exact { hd with result_notNaN := isNaN_rne64 q }
  · exact hk

/-- The result of a command's last conversion keeps the data in their ranges (R27, R140, R160). -/
theorem finish_inv {s u : State} (h : s.Inv) (hp : s.phase = .clkLo) (hn : ¬s.nconv.toNat + 1 < s.times.toNat)
    (hu : finish s.convBookkeeping = .next u) : u.Inv := by
  have hc := h.conv (by rw [hp]; rfl)
  have hpwr : s.pwr = true := h.powered (by simp [hp])
  have hd := h.data.convBookkeeping hpwr
  have hk : s.convBookkeeping.sck = !s.convBookkeeping.pwr := by simpa [sckLevel, hpwr] using h.sck_at hp
  have hlast : s.nconv.toNat + 1 = s.times.toNat := by have := hc.conv_count; omega
  have hacc := hc.acc_range
  have hoff := h.offset_range
  cases finish_cases hu with
  | readRaw ho hu =>
    have h0 : s.nconv.toNat = 0 := by simpa [hc.conv_single (.inl ho)] using hlast
    rw [hu]
    refine State.DataInv.inv_complete ?_ ?_ _
    · refine { hd with resultInt_range := ?_ }
      rw [h0] at hacc
      rw [State.convBookkeeping_offset, BitVec.toInt_ofInt_eq_self (by decide) (by omega) (by omega)]
      omega
    · exact hk
  | readRawAvg _ _ hu => rw [hu]; exact hd.inv_complete_result hk _
  | read _ _ hu => rw [hu]; exact hd.inv_complete_result hk _
  | readAvg _ _ _ hu => rw [hu]; exact hd.inv_complete_result hk _
  | tare _ _ hu =>
    have hm := rndDiv_range (x := s.convBookkeeping.acc.toInt) (lo := -2 ^ 23) (hi := 2 ^ 23 - 1) (n := s.times.toNat)
      (by omega) (by omega) (by omega)
    rw [hu]
    refine State.DataInv.inv_complete ?_ ?_ _
    · refine { hd with offset_range := ?_ }
      rw [State.convBookkeeping_times, BitVec.toInt_ofInt_eq_self (by decide) (by omega) (by omega)]
      omega
    · exact hk

theorem clkLoStep_inv {s u : State} (h : s.Inv) (hp : s.phase = .clkLo) {inp : CycleInput}
    (hu : clkLoStep inp s = .next u) : u.Inv := by
  have hc := h.conv (by rw [hp]; rfl)
  have hpwr : s.pwr = true := h.powered (by simp [hp])
  have hlt : s.cnt.toNat < s.cfg.tLow := by simpa only [State.counterInRange, hp] using h.counter
  have hst := h.status (by simp [hp])
  unfold clkLoStep endConv at hu
  split_ifs at hu with hf hl hb hn
  · cases hu
    exact enterRecovery_inv h (.inr hp)
  · cases hu
    have hbit : (s.bitI + 1).toNat ≤ 23 + s.npulse.toNat := by
      rw [BitVec.toNat_add]
      exact (Nat.mod_le _ _).trans hb
    exact State.DataInv.inv_of_busy { h.data with } hst rfl (tHigh_pos _) (fun _ => { hc with })
      (hbit := fun _ => hbit) (hup := fun _ => hpwr)
  · cases hu
    exact (h.data.convBookkeeping hpwr).inv_beginConv hst (hc.convBookkeeping hn) (.inl hpwr)
  · exact finish_inv h hp hn hu
  · cases hu
    exact h.counted (by simpa only [State.counterInRange, hp] using toNat_succ_lt (by omega))

theorem phaseStep_inv {s u : State} (h : s.Inv) {inp : CycleInput} (hu : phaseStep s.phase inp s = .next u) : u.Inv := by
  cases hp : s.phase <;> simp only [hp, phaseStep, Host.Outcome.next.injEq] at hu
  case clkLo => exact clkLoStep_inv h hp hu
  all_goals subst hu
  case idle => exact h
  case pdHold => exact pdHoldStep_inv h hp
  case puSettle => exact puSettleStep_inv h hp
  case wrapHi => exact wrapHiStep_inv h hp
  case wrapLo => exact wrapLoStep_inv h hp
  case waitRdy => exact waitRdyStep_inv h hp inp
  case clkHi => exact clkHiStep_inv h hp inp
  case recoverHi => exact recoverHiStep_inv h hp
  case recoverLo => exact recoverLoStep_inv h hp

/-! ## Who writes the result registers -/

/-- OFFSET, RESULT_INT, RESULT and SAMPLE stay as they are. -/
structure State.SameResults (s t : State) : Prop where
  offset : t.offset = s.offset
  resultInt : t.resultInt = s.resultInt
  result : t.result = s.result
  sample : t.sample = s.sample

theorem IdleOutcome.sameResults {i : Instr} {s t : State} (h : IdleOutcome i s t) : s.SameResults t := by
  cases h with
  | unchanged ht => rw [ht]; constructor <;> rfl
  | atOnce g r p k e ht => rw [ht]; constructor <;> rfl
  | power l p ht => rw [ht]; constructor <;> rfl
  | conversion op n ht => rw [ht, beginConv_eq]; constructor <;> rfl

/-- No host access of an idle cycle writes a result register (R64, R200). -/
theorem hostAccess_idle_sameResults {a : HostAccess} {s t : State} (hs : s.phase = .idle)
    (h : hostAccess a s = .next t) : s.SameResults t := by
  rcases hostAccess_idle_cases hs h with ⟨_, _, _, _, _, rfl⟩ | ⟨off, v, -, -, ⟨i, -, hi⟩ | rfl⟩
  · constructor <;> rfl
  · exact (exec_idle_cases hs hi).sameResults
  · constructor <;> rfl

/-- A phase step leaves the result registers as they are, but where it ends a conversion (R107, R109). -/
theorem phaseStep_sameResults_or_endConv {s u : State} {inp : CycleInput} (h : phaseStep s.phase inp s = .next u) :
    s.SameResults u ∨ s.endsConversion inp = true ∧ endConv s = .next u := by
  cases hp : s.phase <;> simp only [hp, phaseStep, pdHoldStep, puSettleStep, wrapHiStep, wrapLoStep, waitRdyStep,
    clkHiStep, clkLoStep, recoverHiStep, recoverLoStep, Host.Outcome.next.injEq] at h
  case clkLo =>
    split_ifs at h with hf hl hb
    · cases h; left; constructor <;> rfl
    · cases h; left; constructor <;> rfl
    · right; exact ⟨by simp [State.endsConversion, hp, hf, hl, hb], h⟩
    · cases h; left; constructor <;> rfl
  case idle => subst h; left; constructor <;> rfl
  all_goals
    subst h
    left
    split_ifs <;> constructor <;> simp [State.enterRecovery]

/-- The end of a conversion writes each result register for its own commands only (R140 to R143, R170). -/
theorem endConv_writers {s u : State} (h : endConv s = .next u) :
    (s.offset ≠ u.offset → s.op = .tare) ∧ (s.resultInt ≠ u.resultInt → s.op = .readRaw) ∧
    (s.result ≠ u.result → s.op = .readRawAvg ∨ s.op = .read ∨ s.op = .readAvg) := by
  unfold endConv at h
  split at h
  · cases h; simp
  · rcases finish_cases h with ⟨ho, rfl⟩ | ⟨ho, -, rfl⟩ | ⟨ho, -, rfl⟩ | ⟨ho, -, -, rfl⟩ | ⟨ho, -, rfl⟩
    all_goals
      rw [State.convBookkeeping_op] at ho
      simp [ho]

/-! ## Who writes CONFIG and SCALE -/

/-- Of the commands written while idle only CONFIGURE changes CONFIG, and only SET_SCALE changes SCALE (R24, R28). -/
theorem IdleOutcome.writers {i : Instr} {s t : State} (h : IdleOutcome i s t) :
    (s.gain ≠ t.gain ∨ s.rmode ≠ t.rmode ∨ s.pwrap ≠ t.pwrap → i.opcode = .configure) ∧
    (s.scale ≠ t.scale → i = .setScale) := by
  cases h with
  | unchanged ht => simp [ht]
  | atOnce g r p k e ht hc hk =>
    rw [ht]
    constructor
    · intro hne
      by_contra hi
      obtain ⟨rfl, rfl, rfl⟩ := hc hi
      simp at hne
    · intro hne
      obtain ⟨-, hi, -⟩ := hk (Ne.symm hne)
      exact hi
  | power l p ht => simp [ht]
  | conversion op n ht => simp [ht]

/-- The same of the host's access of an idle cycle, by the word it writes to CMD. -/
theorem hostAccess_idle_writers {a : HostAccess} {s t : State} (hs : s.phase = .idle) (h : hostAccess a s = .next t) :
    (s.gain ≠ t.gain ∨ s.rmode ≠ t.rmode ∨ s.pwrap ≠ t.pwrap →
      ∃ off w, a = .write off w ∧ off.toNat < 4 ∧ specOp w = 1) ∧
    (s.scale ≠ t.scale → ∃ off, a = .write off 0x00000009 ∧ off.toNat < 4) := by
  rcases hostAccess_idle_cases hs h with ⟨_, _, _, _, _, rfl⟩ | ⟨off, v, ha, hcmd, ⟨i, hd, hi⟩ | rfl⟩
  · simp
  · obtain ⟨hconf, hscale⟩ := (exec_idle_cases hs hi).writers
    have hoff := regAt_cmd_iff.1 hcmd
    obtain ⟨-, hop, -⟩ := decode_ok_iff.1 hd
    constructor
    · intro hne
      refine ⟨off, v, ha, hoff, ?_⟩
      rw [specOp_eq_code, hop, hconf hne]
      rfl
    · intro hne
      rw [hscale hne, decode_setScale_iff] at hd
      exact ⟨off, hd ▸ ha, hoff⟩
  · simp

/-! ## The obligations -/

/-- Settles O1: the edge under reset is `applyReset`, which gives every field its value in `State.reset`. -/
theorem resetEdgeGivesEveryFieldItsValue : Obligations.ResetEdgeGivesEveryFieldItsValue := by
  intro s hr
  rw [step_of_rst hr]
  simp [State.advance, hr, State.applyReset, State.reset]

/-- Settles O2. -/
theorem resetStateMeetsInvariant : Obligations.ResetStateMeetsInvariant := inv_reset

/-- Settles O18: each word is the sum of its fields, and each code is the one its rule lists. -/
theorem statusAndConfigWordsHoldTheirFields : Obligations.StatusAndConfigWordsHoldTheirFields := by
  intro s dout
  rw [statusWord_toNat, configWord_toNat, busy_toNat, rdy_toNat]
  constructor
  · congr 2
    · congr 2
      cases s.err <;> rfl
    · cases s.phase <;> rfl
  · cases s.gain <;> cases s.rmode <;> rfl

/-- Settles O20: no register is at such an offset. -/
theorem unmappedOffsetsReadZeroAndIgnoreWrites : Obligations.UnmappedOffsetsReadZeroAndIgnoreWrites := by
  intro s dout off v hoff
  simp only [State.busRead, busWrite, regAt_unmapped hoff, and_self]

/-- Settles O24: the placed word is a write to CMD in an idle cycle. -/
theorem placedWordRunsInTheNextStep : Obligations.PlacedWordRunsInTheNextStep := by
  intro s t w i hp hd ht
  have hr : (s.withFetchWord 32 w).currentInput.rst = false := rfl
  have hu : hostAccess (s.withFetchWord 32 w).currentInput.access (s.withFetchWord 32 w) = .next t :=
    (hostAccess_write_cmd (by decide) (decode_of_decodeTableWord hd)).trans ht
  rw [step_of_idle hr hp hu, advance_tickSinceLast hr]

/-- Settles O46: only the end of a conversion writes a result register, by the rule of the command in progress. -/
theorem eachResultRegisterHasItsOwnWriter : Obligations.EachResultRegisterHasItsOwnWriter := by
  intro s t hr hst
  cases step_cases hst with
  | reset hr' => simp [hr] at hr'
  | idle _ hp u hu ht =>
    obtain ⟨ho, hi, hres, hsam⟩ := hostAccess_idle_sameResults hp hu
    simp [ht, ho, hi, hres, hsam]
  | abort _ _ ht => simp [ht]
  | busy _ _ r k u _ hu ht =>
    rcases phaseStep_sameResults_or_endConv hu with ⟨ho, hi, hres, hsam⟩ | ⟨hends, hend⟩
    · simp [ht, ho, hi, hres, hsam]
    · obtain ⟨ho, hi, hres⟩ := endConv_writers hend
      rw [ht]
      exact ⟨ho, hi, hres, fun _ => (endsConversion_iff s).1 hends⟩

/-- Settles O47: no phase step writes CONFIG or SCALE, and while idle only the two commands do. -/
theorem onlyConfigureAndSetScaleWriteTheirRegisters : Obligations.OnlyConfigureAndSetScaleWriteTheirRegisters := by
  intro s t hr hst
  cases step_cases hst with
  | reset hr' => simp [hr] at hr'
  | idle _ hp u hu ht =>
    obtain ⟨hconf, hscale⟩ := hostAccess_idle_writers hp hu
    rw [ht]
    exact ⟨fun h => ⟨hp, hconf h⟩, fun h => ⟨hp, hscale h⟩⟩
  | abort _ _ ht => simp [ht]
  | busy _ _ r k u _ hu ht =>
    have hf := phaseStep_frame hu
    simp [ht, hf.gain, hf.rmode, hf.pwrap, hf.scale]

/-- Settles O42, by the ways a step answers a next state: reset, an idle cycle, an accepted ABORT, a phase step. -/
theorem everyStepKeepsInvariant : Obligations.EveryStepKeepsInvariant := by
  intro s t h hst
  cases step_cases hst with
  | reset _ ht => rw [ht, inv_advance]; exact inv_applyReset s
  | idle _ hp u hu ht => rw [ht, inv_advance, inv_tickSinceLast]; exact hostAccess_idle_inv hp h hu
  | abort _ hp ht => rw [ht, inv_advance, inv_tickSinceLast]; exact inv_aborted h hp
  | busy _ _ r k u _ hu ht => rw [ht, inv_advance, inv_tickSinceLast, inv_marked]; exact phaseStep_inv h hu

end Sys2Proof.Machine
end

section
/-! # The memory family: host reads and writes, and the bits of a transaction (20_memory.md)

The facts come first, in the order of the definitions they speak of; the obligations are settled from them at the end. -/

namespace Sys2Proof.Machine

/-! ## The register map and the halves of the 64-bit pairs -/

/-- What an offset names: the register at the offset with bits 1:0 cleared, or nothing from 0x40 up (R34, R62). -/
theorem regAt_cases (off : BitVec 8) :
    (∃ r, regAt off = some r ∧ off.toNat / 4 * 4 = (regOffset r).toNat) ∨
    (regAt off = none ∧ 0x40 ≤ off.toNat / 4 * 4) := by
  unfold regAt
  rw [toNat_extract_registerIndex]
  split
  case h_17 =>
    right
    refine ⟨rfl, ?_⟩
    simp only [imp_false] at *
    omega
  all_goals
    rename_i h
    left
    exact ⟨_, rfl, by rw [h]; rfl⟩

theorem lowWord_eq (x : DWord) : x.extractLsb' 0 32 = BitVec.ofNat 32 (x.toNat % 2 ^ 32) := by
  apply BitVec.eq_of_toNat_eq
  simp [BitVec.extractLsb'_toNat]

theorem highWord_eq (x : DWord) : x.extractLsb' 32 32 = BitVec.ofNat 32 (x.toNat / 2 ^ 32) := by
  apply BitVec.eq_of_toNat_eq
  simp [BitVec.extractLsb'_toNat, Nat.shiftRight_eq_div_pow]

/-- The pair after a write of its low half (R30, R64). -/
theorem writeLowWord_eq (x : DWord) (v : Word) :
    x.extractLsb' 32 32 ++ v = BitVec.ofNat 64 (x.toNat / 2 ^ 32 * 2 ^ 32 + v.toNat) := by
  apply BitVec.eq_of_toNat_eq
  have := x.isLt
  have := v.isLt
  rw [toNat_append_add, highWord_eq, BitVec.toNat_ofNat, BitVec.toNat_ofNat]
  omega

/-- The pair after a write of its high half (R30, R64). -/
theorem writeHighWord_eq (x : DWord) (v : Word) :
    v ++ x.extractLsb' 0 32 = BitVec.ofNat 64 (v.toNat * 2 ^ 32 + x.toNat % 2 ^ 32) := by
  apply BitVec.eq_of_toNat_eq
  have := v.isLt
  rw [toNat_append_add, lowWord_eq, BitVec.toNat_ofNat, BitVec.toNat_ofNat]
  omega

/-! ## Cycles with a listed input -/

/-- Of the cycle's inputs a phase step sees the two lines alone (R101). -/
theorem phaseStep_lines (p : Phase) (inp : CycleInput) (a : HostAccess) (r : Bool) (s : State) :
    phaseStep p { inp with access := a, rst := r } s = phaseStep p inp s := by
  cases p <;> rfl

/-- `step_of_quiet` for a listed input, the model's own fields written out (R5). -/
theorem step_of_quiet_cons {s : State} {inp : CycleInput} {rest : List CycleInput} (hin : s.inputs = inp :: rest)
    (hr : inp.rst = false) (ha : quietAccess inp.access = true) :
    step s = andThen (phaseStep s.phase inp s) fun u => .next
      { u.tickSinceLast (s.endsConversion inp) with
        inputs := rest, cycle := s.cycle + 1, rdata := s.readData inp } := by
  have hcur : s.currentInput = inp := by simp only [State.currentInput, hin]
  have hquiet : ∀ off v, s.currentInput.access ≠ .write off v := by
    intro off v h
    rw [← hcur, h] at ha
    cases ha
  rw [step_of_quiet (hcur ▸ hr) hquiet, hcur]
  simp only [State.advance, hin, hr, List.tail_cons, Bool.false_eq_true, if_false]

/-! ## Runs -/

theorem run_succ (j : Nat) (s : State) :
    Host.Core.run core (j + 1) s = andThen (step s) (Host.Core.run core j) := by
  have hcore : core.step s = step s := rfl
  refine (Host.Core.run.eq_2 core s j).trans ?_
  rw [hcore]
  cases step s <;> rfl

/-- A run goes on by one step at its end. -/
theorem run_succ_of_next {j : Nat} {s t u : State} (hrun : Host.Core.run core j s = .next t) (hst : step t = .next u) :
    Host.Core.run core (j + 1) s = .next u := by
  induction j generalizing s with
  | zero =>
    cases hrun
    rw [run_succ, hst]
    rfl
  | succ j ih =>
    rw [run_succ] at hrun ⊢
    obtain ⟨v, hv, hrun⟩ := andThen_next_iff.1 hrun
    rw [hv]
    exact ih hrun

/-- A cycle outside IDLE and the readiness wait: the phase step, whatever the host does (R101, R185). -/
theorem step_of_phaseStep {s u : State} {p : Phase} (hr : s.currentInput.rst = false) (hp : s.phase = p)
    (hi : p ≠ .idle) (hw : p ≠ .waitRdy) (hu : phaseStep p s.currentInput s = .next u) :
    ∃ r k, step s = .next (s.advance s.currentInput
      ((u.marked r k s.inputs).tickSinceLast (s.endsConversion s.currentInput))) := by
  subst hp
  have ha : s.acceptsAbort s.currentInput.access = false := by
    unfold State.acceptsAbort
    split <;> simp [hw]
  obtain ⟨r, k, -, -, hst⟩ := step_of_busy hr hi ha
  refine ⟨r, k, ?_⟩
  rw [hst, hu]
  rfl

/-! ## The bits of a transaction -/

/-- Bit n - 1 - k of the first n sampled bits is the level sampled in pulse k (R105, R106). -/
theorem testBit_sampledBits (c : Config) (l : List CycleInput) {n k : Nat} (hk : k < n) :
    (sampledBits c l n).testBit (n - 1 - k) = doutAt l (k * (c.tHigh + c.tLow) + (c.tHigh - 1)) := by
  induction n with
  | zero => omega
  | succ n ih =>
    rw [sampledBits]
    generalize hb : doutAt l (n * (c.tHigh + c.tLow) + (c.tHigh - 1)) = b
    rcases Nat.lt_succ_iff_lt_or_eq.1 hk with hlt | rfl
    · have hhalf : (2 * sampledBits c l n + b.toNat) / 2 = sampledBits c l n := by
        have := b.toNat_lt
        omega
      rw [show n + 1 - 1 - k = n - 1 - k + 1 by omega, Nat.testBit_succ, hhalf, ih hlt]
    · rw [hb]
      cases b <;> simp

/-- The shift register after the first `n` pulses of a transaction that begins in `s`: the selector pulses, those after the 24th,
shift nothing in (R106). -/
def State.shiftedIn (s : State) (n : Nat) : BitVec 24 :=
  BitVec.ofNat 24 (s.shreg.toNat * 2 ^ min n 24 + sampledBits s.cfg s.inputs (min n 24))

theorem shiftedIn_zero (s : State) : s.shiftedIn 0 = s.shreg := by
  simp [State.shiftedIn, sampledBits]

/-- `sample_bit` of the level of a pulse's last high cycle shifts the pulse in (R105, R106). -/
theorem sampleBit_shreg_shiftedIn {s t : State} {k : Nat} (hk : t.bitI.toNat = k) (ht : t.shreg = s.shiftedIn k) :
    (t.sampleBit (doutAt s.inputs (k * s.pulseCycles + (s.cfg.tHigh - 1)))).shreg = s.shiftedIn (k + 1) := by
  unfold State.sampleBit
  rw [hk]
  split
  case isTrue hlt =>
    have hstep : sampledBits s.cfg s.inputs (k + 1) = 2 * sampledBits s.cfg s.inputs k +
        (doutAt s.inputs (k * s.pulseCycles + (s.cfg.tHigh - 1))).toNat := rfl
    rw [State.shiftedIn, Nat.min_eq_left hlt.le] at ht
    rw [State.shiftedIn, Nat.min_eq_left (Nat.succ_le_of_lt hlt), hstep]
    generalize doutAt s.inputs (k * s.pulseCycles + (s.cfg.tHigh - 1)) = b
    apply BitVec.eq_of_toNat_eq
    rw [toNat_append_add, BitVec.extractLsb'_toNat, ht, BitVec.toNat_ofBool, BitVec.toNat_ofNat, BitVec.toNat_ofNat,
      Nat.shiftRight_zero, pow_succ 2 k, ← Nat.mul_assoc]
    have := b.toNat_lt
    generalize s.shreg.toNat * 2 ^ k = x
    omega
  case isFalse hge => rw [ht, State.shiftedIn, State.shiftedIn, Nat.min_eq_right (by omega), Nat.min_eq_right (by omega)]

/-! ## The cycles of a transaction

A position in a transaction is a pulse and a cycle of it. The three ways in which a clocking cycle goes on without ending the
transaction (it counts, it samples, it begins the next pulse: R105, R107) lead from one position to the next. -/

/-- What a clocking cycle leaves as it is, under every host access: the state without the fields that such a cycle can change. -/
def State.besideClocking (s : State) : State :=
  { s with
    phase := .idle, sck := false, cnt := 0, bitI := 0, shreg := 0, rej := false, scaleStg := 0, sinceLast := 0
    inputs := [], cycle := 0, rdata := none }

/-- `t` is cycle `i` of pulse `k` of the transaction whose first cycle is `s`. -/
structure State.InPulse (s : State) (k i : Nat) (t : State) : Prop where
  frame : t.besideClocking = s.besideClocking
  inputs : t.inputs = s.inputs.drop (k * s.pulseCycles + i)
  bitI : t.bitI.toNat = k
  phase : t.phase = if i < s.cfg.tHigh then .clkHi else .clkLo
  cnt : t.cnt.toNat = if i < s.cfg.tHigh then i else i - s.cfg.tHigh
  shreg : t.shreg = s.shiftedIn (if i < s.cfg.tHigh then k else k + 1)
  sck : s.sck = true → t.sck = decide (i < s.cfg.tHigh)

section
variable {s t : State} {k i : Nat} (h : s.InPulse k i t)
include h

theorem State.InPulse.cfg : t.cfg = s.cfg := (congrArg State.cfg h.frame :)

theorem State.InPulse.npulse : t.npulse = s.npulse := (congrArg State.npulse h.frame :)

theorem State.InPulse.tail_inputs : t.inputs.tail = s.inputs.drop (k * s.pulseCycles + i + 1) := by
  rw [h.inputs, List.tail_drop]

/-- The input of a cycle is the listed one of its position. -/
theorem State.InPulse.currentInput (hj : k * s.pulseCycles + i < s.inputs.length) :
    s.inputs[k * s.pulseCycles + i]? = some t.currentInput := by
  rw [State.currentInput, h.inputs, List.drop_eq_getElem_cons hj]
  exact List.getElem?_eq_getElem hj

end

/-- A transaction that begins in a state whose first high cycle is still to come, with no reset, no line fault and no counter
overflow ahead (R100). -/
structure State.Clocks (s : State) : Prop where
  phase : s.phase = .clkHi
  cnt : s.cnt = 0
  bitI : s.bitI = 0
  tHigh_lt : s.cfg.tHigh < 2 ^ 64
  tLow_le : s.cfg.tLow ≤ 2 ^ 64
  undisturbed : ∀ inp ∈ s.inputs, undisturbed s.cfg inp = true

theorem tHigh_lt_of_cycPerUs_lt {c : Config} (h : c.cycPerUs < 2 ^ 32) : c.tHigh < 2 ^ 64 := by
  have := c.legal.2.2.1
  omega

theorem toNat_succ_eq {c : BitVec 64} (h : c.toNat + 1 < 2 ^ 64) : (c + 1).toNat = c.toNat + 1 := by
  rw [BitVec.toNat_add]
  exact Nat.mod_eq_of_lt h

/-- The first cycle of a transaction. -/
theorem State.Clocks.inPulse_start {s : State} (hs : s.Clocks) : s.InPulse 0 0 s where
  frame := rfl
  inputs := by simp
  bitI := by rw [hs.bitI]; rfl
  phase := by rw [hs.phase, if_pos (tHigh_pos _)]
  cnt := by rw [hs.cnt, if_pos (tHigh_pos _)]; rfl
  shreg := by rw [if_pos (tHigh_pos _), shiftedIn_zero]
  sck h := by rw [h, decide_eq_true (tHigh_pos _)]

section
variable {s t : State} {k i : Nat} (hs : s.Clocks) (h : s.InPulse k i t) (hj : k * s.pulseCycles + i < s.inputs.length)
include hs h hj

theorem State.InPulse.no_reset_no_fault : t.currentInput.rst = false ∧ t.lineFault t.currentInput = false := by
  have hu := hs.undisturbed _ (List.mem_of_getElem? (h.currentInput hj))
  rw [State.lineFault, h.cfg]
  simpa only [Machine.undisturbed, Bool.and_eq_true, Bool.not_eq_true'] using hu

/-- A cycle that ends neither half of its pulse counts (R105, R107). -/
theorem State.InPulse.step_counts (hhalf : i + 1 ≠ s.cfg.tHigh) (hpulse : i + 1 < s.pulseCycles) :
    ∃ t', step t = .next t' ∧ s.InPulse k (i + 1) t' := by
  obtain ⟨hr, hf⟩ := h.no_reset_no_fault hs hj
  have hhigh := hs.tHigh_lt
  have hlow := hs.tLow_le
  have hiff : i + 1 < s.cfg.tHigh ↔ i < s.cfg.tHigh := by omega
  rw [State.pulseCycles] at hpulse
  have hc := h.cnt
  have hu : phaseStep (if i < s.cfg.tHigh then .clkHi else .clkLo) t.currentInput t =
      .next { t with cnt := t.cnt + 1 } := by
    split at hc
    · rw [if_pos ‹_›, phaseStep, clkHiStep, if_neg (by simp [hf]), if_neg (by rw [hc, h.cfg]; omega)]
    · rw [if_neg ‹_›, phaseStep, clkLoStep, if_neg (by simp [hf]), if_neg (by rw [hc, h.cfg]; omega)]
  obtain ⟨r, k', hst⟩ := step_of_phaseStep hr h.phase (by split <;> decide) (by split <;> decide) hu
  refine ⟨_, hst, h.frame, h.tail_inputs, h.bitI, ?_, ?_, ?_, ?_⟩
  · simpa [hiff] using h.phase
  · change (t.cnt + 1).toNat = _
    rw [toNat_succ_eq (by split at hc <;> omega), hc]
    split <;> split <;> omega
  · simpa [hiff] using h.shreg
  · simpa [hiff] using h.sck

/-- The last high cycle of a pulse, which samples DOUT (R105, R106). -/
theorem State.InPulse.step_sample (hi : i + 1 = s.cfg.tHigh) : ∃ t', step t = .next t' ∧ s.InPulse k (i + 1) t' := by
  obtain ⟨hr, hf⟩ := h.no_reset_no_fault hs hj
  have hlt : i < s.cfg.tHigh := by omega
  have hge : ¬i + 1 < s.cfg.tHigh := by omega
  have hp : t.phase = .clkHi := by rw [h.phase, if_pos hlt]
  have hc : t.cnt.toNat = i := by rw [h.cnt, if_pos hlt]
  have hd : doutAt s.inputs (k * s.pulseCycles + (s.cfg.tHigh - 1)) = t.currentInput.dout := by
    rw [← hi, Nat.add_sub_cancel, doutAt, h.currentInput hj]
  have hu : phaseStep .clkHi t.currentInput t =
      .next { t.sampleBit t.currentInput.dout with sck := false, phase := .clkLo, cnt := 0 } := by
    rw [phaseStep, clkHiStep, if_neg (by simp [hf]), if_pos (by rw [hc, h.cfg]; exact hi)]
  obtain ⟨r, k', hst⟩ := step_of_phaseStep hr hp (by decide) (by decide) hu
  refine ⟨_, hst, ?_, h.tail_inputs, ?_, ?_, ?_, ?_, ?_⟩
  · rw [← h.frame]
    unfold State.sampleBit
    split <;> rfl
  · simpa using h.bitI
  · rw [if_neg hge]; rfl
  · rw [if_neg hge, hi, Nat.sub_self]; rfl
  · rw [if_neg hge, ← sampleBit_shreg_shiftedIn h.bitI (by simpa [hlt] using h.shreg), hd]
    rfl
  · simp [hge]

/-- The last low cycle of every pulse but the transaction's last (R107). -/
theorem State.InPulse.step_nextPulse (hi : i + 1 = s.pulseCycles) (hk : k < 23 + s.npulse.toNat) :
    ∃ t', step t = .next t' ∧ s.InPulse (k + 1) 0 t' := by
  obtain ⟨hr, hf⟩ := h.no_reset_no_fault hs hj
  have hpos := tLow_pos s.cfg
  rw [State.pulseCycles] at hi
  have hge : ¬i < s.cfg.tHigh := by omega
  have hp : t.phase = .clkLo := by rw [h.phase, if_neg hge]
  have hc : t.cnt.toNat = i - s.cfg.tHigh := by rw [h.cnt, if_neg hge]
  have hu : phaseStep .clkLo t.currentInput t =
      .next { t with bitI := t.bitI + 1, sck := true, phase := .clkHi, cnt := 0 } := by
    rw [phaseStep, clkLoStep, if_neg (by simp [hf]), if_pos (by rw [hc, h.cfg]; omega),
      if_pos (by rw [h.bitI, h.npulse]; exact hk)]
  obtain ⟨r, k', hst⟩ := step_of_phaseStep hr hp (by decide) (by decide) hu
  refine ⟨_, hst, h.frame, ?_, ?_, ?_, ?_, ?_, ?_⟩
  · rw [show (k + 1) * s.pulseCycles + 0 = k * s.pulseCycles + i + 1 by rw [State.pulseCycles, ← hi]; ring]
    exact h.tail_inputs
  · have := s.npulse.isLt
    have hb := h.bitI
    change (t.bitI + 1).toNat = k + 1
    rw [BitVec.toNat_add, hb]
    exact Nat.mod_eq_of_lt (by simp; omega)
  · rw [if_pos (tHigh_pos _)]; rfl
  · rw [if_pos (tHigh_pos _)]; rfl
  · rw [if_pos (tHigh_pos _)]
    simpa [hge] using h.shreg
  · intro _
    rw [decide_eq_true (tHigh_pos _)]; rfl

end

/-- A pulse runs from its first cycle to each of its others. -/
theorem State.Clocks.run_in_pulse {s : State} (hs : s.Clocks) {k : Nat}
    (h0 : ∃ t, Host.Core.run core (k * s.pulseCycles) s = .next t ∧ s.InPulse k 0 t) {i : Nat} (hi : i < s.pulseCycles)
    (hlen : k * s.pulseCycles + i ≤ s.inputs.length) :
    ∃ t, Host.Core.run core (k * s.pulseCycles + i) s = .next t ∧ s.InPulse k i t := by
  induction i with
  | zero => exact h0
  | succ i ih =>
    obtain ⟨t, hrun, ht⟩ := ih (by omega) (by omega)
    have hj : k * s.pulseCycles + i < s.inputs.length := by omega
    obtain ⟨t', hst, ht'⟩ : ∃ t', step t = .next t' ∧ s.InPulse k (i + 1) t' := by
      by_cases hhalf : i + 1 = s.cfg.tHigh
      · exact ht.step_sample hs hj hhalf
      · exact ht.step_counts hs hj hhalf hi
    exact ⟨t', run_succ_of_next hrun hst, ht'⟩

/-- R105 to R107: a transaction runs through every cycle of its 24 + N pulses, whatever the host does. -/
theorem State.Clocks.run {s : State} (hs : s.Clocks) {k i : Nat} (hk : k ≤ 23 + s.npulse.toNat) (hi : i < s.pulseCycles)
    (hlen : k * s.pulseCycles + i ≤ s.inputs.length) :
    ∃ t, Host.Core.run core (k * s.pulseCycles + i) s = .next t ∧ s.InPulse k i t := by
  refine hs.run_in_pulse ?_ hi hlen
  clear hi
  replace hlen : k * s.pulseCycles ≤ s.inputs.length := by omega
  induction k with
  | zero => exact ⟨s, by rw [Nat.zero_mul]; rfl, hs.inPulse_start⟩
  | succ k ih =>
    have hpos : 0 < s.pulseCycles := Nat.add_pos_left (tHigh_pos _) _
    have hend : (k + 1) * s.pulseCycles = k * s.pulseCycles + (s.pulseCycles - 1) + 1 := by
      rw [Nat.succ_mul]; omega
    obtain ⟨t, hrun, ht⟩ := hs.run_in_pulse (ih (by omega) (by omega)) (i := s.pulseCycles - 1) (by omega) (by omega)
    obtain ⟨t', hst, ht'⟩ := ht.step_nextPulse hs (by omega) (by omega) (by omega)
    exact ⟨t', hend ▸ run_succ_of_next hrun hst, ht'⟩

/-! ## The obligations -/

/-- Settles O17, by the registers an offset can name. -/
theorem busReadReturnsTheNamedRegister : Obligations.BusReadReturnsTheNamedRegister := by
  intro s dout off
  rcases regAt_cases off with ⟨r, hr, ha⟩ | ⟨hr, ha⟩
  · simp only [State.busRead, hr, ha]
    cases r <;> simp [regOffset, State.readReg, lowWord_eq, highWord_eq]
  · simp only [State.busRead, hr]
    repeat rw [if_neg (by omega)]

/-- Settles O19, by the registers an offset can name; CMD is below offset 4. -/
theorem busWriteChangesOnlyItsRegister : Obligations.BusWriteChangesOnlyItsRegister := by
  intro s off v hoff
  rcases regAt_cases off with ⟨r, hr, ha⟩ | ⟨hr, ha⟩
  · simp only [busWrite, hr, ha]
    cases r
    case cmd => exact absurd (regAt_cmd_iff.1 hr) (not_lt.2 hoff)
    all_goals simp [regOffset, State.writeTiming, State.discardWrite, writeLowWord_eq, writeHighWord_eq]
  · simp only [busWrite, hr]
    repeat rw [if_neg (by omega)]

/-- Settles O21: the phase step of the cycle sees neither the access nor the list of inputs, so both cycles run the same one. -/
theorem readsHaveNoSideEffect : Obligations.ReadsHaveNoSideEffect := by
  intro s t inp rest off hin ht
  rw [step_of_quiet_cons hin rfl rfl, phaseStep_lines]
  change step (s.marked s.rej s.scaleStg ({ inp with access := .idle, rst := false } :: rest)) = _ at ht
  rw [step_of_quiet_cons (State.marked_inputs ..) rfl rfl, State.marked_phase, phaseStep_lines, phaseStep_marked] at ht
  cases hv : phaseStep s.phase inp s with
  | next v =>
    obtain ⟨hrej, hstg, -⟩ := phaseStep_keeps hv
    rw [hv, ← hrej, ← hstg] at ht
    cases ht
    rfl
  | fault r => rw [hv] at ht; cases ht
  | refused r => rw [hv] at ht; cases ht

/-- Settles O53: the run reaches the first selector pulse, and the shift register then holds the 24 sampled bits. -/
theorem dataPulsesReceiveTheFieldMsbFirst : Obligations.DataPulsesReceiveTheFieldMsbFirst := by
  intro s hp hc hb hsh hn hcyc hlow hlen hund
  have hs : s.Clocks := ⟨hp, hc, hb, tHigh_lt_of_cycPerUs_lt hcyc, hlow, hund⟩
  have h0 := tHigh_pos s.cfg
  obtain ⟨t, hrun, ht⟩ := hs.run (k := 24) (i := 0) (by omega) (Nat.add_pos_left h0 _) hlen
  refine ⟨t, hrun, by simpa [h0] using ht.phase, BitVec.eq_of_toNat_eq ht.bitI,
    BitVec.eq_of_toNat_eq (by simpa [h0] using ht.cnt), fun k hk => ?_⟩
  have hfield : t.shreg = sampledField s.cfg s.inputs := by
    simpa [h0, State.shiftedIn, hsh, sampledField] using ht.shreg
  rw [hfield, sampledField, BitVec.getLsbD_ofNat, testBit_sampledBits _ _ hk]
  simp only [Bool.and_eq_right_iff_imp, decide_eq_true_eq]
  omega

end Sys2Proof.Machine
end

section
/-! # The encoding family: command words, the host assembler and the reserved opcodes (30_encoding.md)

The facts come first, in the order of the definitions they speak of; the obligations are settled from them at the end. -/

namespace Sys2Proof.Machine

/-! ## Masks and fields -/

/-- The mask column written out for the statements is the decoder's. -/
theorem specMask_code (op : Opcode) : specMask op.code.toNat = op.mask := by cases op <;> rfl

/-- The match column of R84 is the opcode itself. -/
theorem ofNat_code (op : Opcode) : BitVec.ofNat 32 op.code.toNat = op.pattern := by cases op <;> rfl

/-- A field that a mask covers whole holds in the word what it holds in the masked bits. -/
theorem extractLsb'_of_masked {w m p : Word} {start len : Nat} (h : w &&& m = p)
    (hm : m.extractLsb' start len = BitVec.allOnes len) : w.extractLsb' start len = p.extractLsb' start len := by
  rw [← h, BitVec.extractLsb'_and, hm, BitVec.and_allOnes]

/-- Every mask covers the OP field, so a word whose masked bits are a row's match has the row's opcode (R84). -/
theorem opField_of_masked {w : Word} {op : Opcode} (h : w &&& op.mask = op.pattern) : opField w = op := by
  have hmask : op.mask.extractLsb' 0 4 = BitVec.allOnes 4 := by cases op <;> rfl
  have hpattern : op.pattern.extractLsb' 0 4 = op.code := by cases op <;> rfl
  rw [opField, extractLsb'_of_masked h hmask, hpattern, ofCode_code]

/-- A word decodes to a command when its masked bits are the match of the command's row and its fields hold the operands. -/
theorem decode_eq_ok_iff {w : Word} {i : Instr} :
    decode w = .ok i ↔ w &&& i.opcode.mask = i.opcode.pattern ∧ commandOf i.opcode w = i := by
  rw [decode_ok_iff]
  exact ⟨fun ⟨hm, _, hi⟩ => ⟨hm, hi.symm⟩, fun ⟨hm, hi⟩ => ⟨hm, opField_of_masked hm, hi.symm⟩⟩

theorem gainField_eq (w : Word) : gainField w = w.toNat / 2 ^ 4 % 4 := by
  rw [gainField, BitVec.extractLsb'_toNat, Nat.shiftRight_eq_div_pow]

theorem readyBit_readyField (w : Word) : readyBit (readyField w) = w.getLsbD 6 := by
  unfold readyField
  cases w.getLsbD 6 <;> rfl

theorem timesField_eq (w : Word) : timesField w = w.toNat / 2 ^ 16 := by
  have := w.isLt
  rw [timesField, BitVec.extractLsb'_toNat, Nat.shiftRight_eq_div_pow]
  omega

theorem restField_toNat (w : Word) : (restField w).toNat = w.toNat / 2 ^ 4 := by
  have := w.isLt
  rw [restField, BitVec.extractLsb'_toNat, Nat.shiftRight_eq_div_pow]
  omega

/-! ## From a command to its word and back -/

/-- A counted word is `n << 16 | OP` (R83). -/
theorem encodeTimes_toNat (op : Opcode) (n : Nat) :
    (encodeTimes op n).toNat = n % 2 ^ 16 * 2 ^ 16 + op.code.toNat := by
  rw [encodeTimes, toNat_append_add, toNat_append_add]
  simp

theorem timesField_encodeTimes (op : Opcode) {n : Nat} (h : n < 2 ^ 16) : timesField (encodeTimes op n) = n := by
  have := op.code.isLt
  rw [timesField_eq, encodeTimes_toNat]
  omega

theorem restField_append (rest : BitVec 28) (c : BitVec 4) : restField (rest ++ c) = rest := by
  have := c.isLt
  apply BitVec.eq_of_toNat_eq
  rw [restField_toNat, toNat_append_add]
  omega

/-- The fields of a CONFIGURE word hold its operands (R82). -/
theorem commandOf_encode_configure {g : Nat} (hg : g < 2 ^ 2) (r : ReadyMode) (p : Bool) :
    commandOf .configure (encode (.configure g r p)) = .configure g r p := by
  have h : ∀ (g : Fin 4) (p : Bool),
      commandOf .configure (encode (.configure g .polling p)) = .configure g .polling p ∧
      commandOf .configure (encode (.configure g .debounced p)) = .configure g .debounced p := by decide
  cases r with
  | polling => exact (h ⟨g, hg⟩ p).1
  | debounced => exact (h ⟨g, hg⟩ p).2

/-- The fields of a well-formed command's word hold its operands (R82, R83, R85). -/
theorem commandOf_encode {i : Instr} (h : i.WellFormed) : commandOf i.opcode (encode i) = i := by
  cases i with
  | nop | readRaw | read | powerUp | powerDown | setScale | abort => rfl
  | configure g r p => exact commandOf_encode_configure (of_decide_eq_true h) r p
  | readRawAvg n => exact congrArg Instr.readRawAvg (timesField_encodeTimes _ (of_decide_eq_true h))
  | readAvg n => exact congrArg Instr.readAvg (timesField_encodeTimes _ (of_decide_eq_true h))
  | tare n => exact congrArg Instr.tare (timesField_encodeTimes _ (of_decide_eq_true h))
  | reservedB rest => exact congrArg Instr.reservedB (restField_append rest _)
  | reservedC rest => exact congrArg Instr.reservedC (restField_append rest _)
  | reservedD rest => exact congrArg Instr.reservedD (restField_append rest _)
  | reservedE rest => exact congrArg Instr.reservedE (restField_append rest _)
  | reservedF rest => exact congrArg Instr.reservedF (restField_append rest _)

/-- The family EncodedRow for every command at once (R80, R84). -/
theorem encodedRow (i : Instr) : Laws.EncodedRow.Statement i := by
  cases i with
  | nop => exact Laws.EncodedRow.nop
  | configure g r p => exact Laws.EncodedRow.configure g r p
  | readRaw => exact Laws.EncodedRow.readRaw
  | readRawAvg n => exact Laws.EncodedRow.readRawAvg n
  | read => exact Laws.EncodedRow.read
  | readAvg n => exact Laws.EncodedRow.readAvg n
  | tare n => exact Laws.EncodedRow.tare n
  | powerUp => exact Laws.EncodedRow.powerUp
  | powerDown => exact Laws.EncodedRow.powerDown
  | setScale => exact Laws.EncodedRow.setScale
  | abort => exact Laws.EncodedRow.abort
  | reservedB rest => exact Laws.EncodedRow.reservedB rest
  | reservedC rest => exact Laws.EncodedRow.reservedC rest
  | reservedD rest => exact Laws.EncodedRow.reservedD rest
  | reservedE rest => exact Laws.EncodedRow.reservedE rest
  | reservedF rest => exact Laws.EncodedRow.reservedF rest

theorem decode_encode {i : Instr} (h : i.WellFormed) : decode (encode i) = .ok i :=
  decode_eq_ok_iff.2 ⟨(encodedRow i).2, commandOf_encode h⟩

/-! ## From a word to its command and back -/

/-- Every value a field can hold is a legal encoding (R82, R83). -/
theorem commandOf_wellFormed (op : Opcode) (w : Word) : (commandOf op w).WellFormed := by
  have hgain : gainField w < 2 ^ 2 := (w.extractLsb' 4 2).isLt
  have htimes : timesField w < 2 ^ 16 := (w.extractLsb' 16 16).isLt
  cases op with
  | configure => exact decide_eq_true hgain
  | readRawAvg | readAvg | tare => exact decide_eq_true htimes
  | nop | readRaw | read | powerUp | powerDown | setScale | abort
  | reservedB | reservedC | reservedD | reservedE | reservedF => rfl

/-- A counted word whose low half is the opcode is rebuilt from TIMES (R83). -/
theorem encodeTimes_timesField {op : Opcode} {w : Word} (h : w &&& 0x0000FFFF = op.pattern) :
    encodeTimes op (timesField w) = w := by
  have hlow : w.toNat % 2 ^ 16 = op.code.toNat := by
    rw [← word_and_low16, h]
    cases op <;> rfl
  have := w.isLt
  apply BitVec.eq_of_toNat_eq
  rw [encodeTimes_toNat, timesField_eq]
  omega

/-- A reserved word is rebuilt from the bits no rule reads (R85). -/
theorem restField_append_code {op : Opcode} {w : Word} (h : w &&& 0x0000000F = op.pattern) :
    restField w ++ op.code = w := by
  have hlow : w.toNat % 2 ^ 4 = op.code.toNat := by
    rw [← word_and_low4, h]
    cases op <;> rfl
  apply BitVec.eq_of_toNat_eq
  rw [toNat_append_add, restField_toNat]
  omega

/-- A word with the fixed bits of CONFIGURE is rebuilt from its fields (R82). -/
theorem encode_commandOf_configure {w : Word} (h : w &&& 0xFFFFFF0F = 0x00000001) :
    encode (commandOf .configure w) = w := by
  have hlow : (w.extractLsb' 0 4).toNat = 1 := congrArg BitVec.toNat (extractLsb'_of_masked h rfl)
  have hhigh : (w.extractLsb' 8 24).toNat = 0 := congrArg BitVec.toNat (extractLsb'_of_masked h rfl)
  rw [BitVec.extractLsb'_toNat, Nat.shiftRight_eq_div_pow] at hlow hhigh
  have := w.isLt
  apply BitVec.eq_of_toNat_eq
  simp only [commandOf, encode, toNat_append_add, BitVec.toNat_ofBool, BitVec.toNat_ofNat, readyBit_readyField, wrapField,
    gainField_eq, BitVec.getLsbD, Nat.toNat_testBit]
  omega

/-- A word whose masked bits are a row's match is the word of the row's command (R84, R85). -/
theorem encode_commandOf {op : Opcode} {w : Word} (h : w &&& op.mask = op.pattern) : encode (commandOf op w) = w := by
  cases op with
  | nop | readRaw | read | powerUp | powerDown | setScale | abort => exact h.symm.trans (word_and_full w)
  | configure => exact encode_commandOf_configure h
  | readRawAvg | readAvg | tare => exact encodeTimes_timesField h
  | reservedB | reservedC | reservedD | reservedE | reservedF => exact restField_append_code h

/-! ## The assembler -/

/-- The word of a counted command as a number (R83). -/
theorem encodeTimes_eq_ofNat (op : Opcode) (n : Nat) :
    encodeTimes op n = BitVec.ofNat 32 (n * 2 ^ 16 + op.code.toNat) := by
  have := op.code.isLt
  apply BitVec.eq_of_toNat_eq
  rw [encodeTimes_toNat, BitVec.toNat_ofNat]
  omega

/-- The operands fit their fields, and no acceptance check refuses them: the gain code is one of a gain and the count is not 0
(R82, R83, R200). -/
def LegalOperands (i : Instr) : Prop :=
  i.WellFormed ∧ (∀ g r p, i = .configure g r p → g < 3) ∧
    (∀ n, i = .readRawAvg n ∨ i = .readAvg n ∨ i = .tare n → 1 ≤ n)

theorem legalOperands_configure {g : Nat} (hg : g < 3) (r : ReadyMode) (p : Bool) :
    LegalOperands (.configure g r p) := by
  refine ⟨decide_eq_true (by omega), ?_, by simp⟩
  rintro _ _ _ ⟨⟩
  exact hg

theorem gainOfNumber_lt {g k : Nat} (h : gainOfNumber g = some k) : k < 3 := by
  unfold gainOfNumber at h
  split_ifs at h <;> cases h <;> decide

theorem countOperand_eq_some {n k : Nat} (h : countOperand n = some k) : 1 ≤ k ∧ k < 2 ^ 16 := by
  unfold countOperand at h
  split_ifs at h
  cases h
  omega

/-- What the assembler accepts has legal operands (R94). -/
theorem assembleCmd_legalOperands {c : HostCmd} {i : Instr} (h : assembleCmd c = some i) : LegalOperands i := by
  cases c with
  | configure g r p | configureGain g =>
    obtain ⟨k, hk, rfl⟩ := Option.map_eq_some_iff.1 h
    exact legalOperands_configure (gainOfNumber_lt hk) _ _
  | configureDefault =>
    cases h
    exact legalOperands_configure (by decide) _ _
  | readRawAvg n | readAvg n | tare n =>
    obtain ⟨k, hk, rfl⟩ := Option.map_eq_some_iff.1 h
    obtain ⟨hpos, hlt⟩ := countOperand_eq_some hk
    exact ⟨decide_eq_true hlt, by simp, by simp [hpos]⟩
  | tareDefault =>
    cases h
    exact ⟨rfl, by simp, by simp⟩
  | nop | readRaw | read | powerUp | powerDown | setScale | abort =>
    cases h
    exact ⟨rfl, by simp, by simp⟩

/-- The accesses of a counted `CMD` line: one write of `n << 16 | OP`, or a refusal (R83, R94). -/
theorem assemble_counted {f : Nat → Instr} {op : Opcode} (hf : ∀ n, encode (f n) = encodeTimes op n) (n : Nat) :
    (((countOperand n).map f).map fun i => [HostLine.wr .cmd (encode i)]) =
      if 1 ≤ n ∧ n ≤ 65535 then some [.wr .cmd (BitVec.ofNat 32 (n * 2 ^ 16 + op.code.toNat))] else none := by
  unfold countOperand
  split
  · simp [hf, encodeTimes_eq_ofNat]
  · rfl

theorem isReadyOf_statusWord (s : State) (dout : Bool) : isReadyOf (s.statusWord dout) = s.rdy dout := by
  simp only [isReadyOf, State.statusWord, BitVec.getLsbD_append]
  simp

/-! ## Illegal words -/

/-- The completion of an illegal word written while idle, as the statements write it out (R85, R200, R203). -/
theorem illegalWord_completedAtOnce {s : State} (hs : s.phase = .idle) : s.illegalWord = completedAtOnce s .illegal :=
  illegalWord_idle hs

/-! ## The obligations -/

/-- Settles O3: a word has its row's fixed bits, and its fields hold the operands. -/
theorem decodeOfEncodeGivesCommandBack : Obligations.DecodeOfEncodeGivesCommandBack :=
  fun _ => decode_encode

/-- Settles O4: the row's fixed bits and the fields make up the whole word. -/
theorem encodeOfDecodeGivesWordBack : Obligations.EncodeOfDecodeGivesWordBack := by
  intro w i h
  obtain ⟨hmask, hi⟩ := decode_eq_ok_iff.1 h
  rw [← hi]
  exact ⟨commandOf_wellFormed _ w, encode_commandOf hmask⟩

/-- Settles O5: the masked bits of a word fix its opcode, so they alone decide whether it is a row's. -/
theorem wordEncodesRowIffMaskedBitsMatch : Obligations.WordEncodesRowIffMaskedBitsMatch := by
  intro w op
  rw [specMask_code, ofNat_code]
  constructor
  · rintro ⟨i, hd, rfl⟩
    exact (decode_eq_ok_iff.1 hd).1
  · intro h
    have hop := commandOf_opcode op w
    exact ⟨commandOf op w, decode_eq_ok_iff.2 (by rw [hop]; exact ⟨h, rfl⟩), hop⟩

/-- Settles O59, line by line: the assembler's operand checks leave legal operands only, whose word decodes to the command (O3). -/
theorem assembledCommandsHaveLegalOperands : Obligations.AssembledCommandsHaveLegalOperands := by
  refine ⟨?words, ?commands, ?accepted, fun l => rfl, rfl, ?setScale, rfl, ?isReady⟩
  case words =>
    intro c
    cases c with
    | configure g r p =>
      simp only [assemble, assembleCmd, gainOfNumber]
      split_ifs <;> cases r <;> cases p <;> rfl
    | configureGain g =>
      simp only [assemble, assembleCmd, gainOfNumber]
      split_ifs <;> rfl
    | readRawAvg n => exact assemble_counted (f := .readRawAvg) (op := .readRawAvg) (fun _ => rfl) n
    | readAvg n => exact assemble_counted (f := .readAvg) (op := .readAvg) (fun _ => rfl) n
    | tare n => exact assemble_counted (f := .tare) (op := .tare) (fun _ => rfl) n
    | nop | configureDefault | readRaw | read | tareDefault | powerUp | powerDown | setScale | abort => rfl
  case commands =>
    intro c
    cases c with
    | configure g r p =>
      simp only [assembleCmd, gainOfNumber]
      split_ifs <;> rfl
    | readRawAvg n | readAvg n | tare n =>
      simp only [assembleCmd, countOperand]
      split_ifs <;> rfl
    | nop | configureGain g | configureDefault | readRaw | read | tareDefault | powerUp | powerDown | setScale | abort => rfl
  case accepted =>
    intro c i h
    obtain ⟨hwf, hgain, hcount⟩ := assembleCmd_legalOperands h
    exact ⟨hwf, by rw [assemble, h]; rfl, decode_encode hwf, hgain, hcount⟩
  case setScale =>
    intro f
    rw [assemble, lowWord_eq, highWord_eq]
    rfl
  case isReady =>
    intro s dout
    have hread : s.busRead dout (regOffset .status) = s.statusWord dout := rfl
    rw [hread, isReadyOf_statusWord, State.rdy, State.busy]
    cases dout <;> simp

/-- Settles O6: eleven words, each run through the decoder. -/
theorem exampleWordsDecode : Obligations.ExampleWordsDecode :=
  ⟨rfl, rfl, rfl, rfl, rfl, rfl, rfl, rfl, rfl, rfl, rfl⟩

/-- Settles O16: `exec` of each reserved opcode is that of an illegal word. -/
theorem reservedOpcodesCompleteWithErrIllegal : Obligations.ReservedOpcodesCompleteWithErrIllegal := by
  intro s rest hs
  rw [← illegalWord_completedAtOnce hs]
  exact ⟨rfl, rfl, rfl, rfl, rfl⟩

end Sys2Proof.Machine
end

section
/-! # The line-protocol family: the order of a cycle, the phases, and the runs of a phase (40_line_protocol.md)

The facts come first, in the order of the definitions they speak of; the obligations are settled from them at the end. -/

namespace Sys2Proof.Machine

/-! ## The sample as a number (R106, R110) -/

theorem decode24_eq_toInt (f : BitVec 24) : decode24 f = f.toInt := by
  rw [decode24, BitVec.toInt_eq_toNat_cond]
  split <;> split <;> omega

/-- The low 23 bits are the whole field but for the weight of its bit 23. -/
theorem toNat_and_sampleMagnitude (f : BitVec 24) : (f &&& 0x7FFFFF).toNat = f.toNat % 2 ^ 23 := by
  rw [BitVec.toNat_and, show (0x7FFFFF : BitVec 24).toNat = 2 ^ 23 - 1 from rfl, Nat.and_two_pow_sub_one_eq_mod]

theorem toNat_and_sampleSign (f : BitVec 24) : (f &&& 0x800000).toNat = if 2 ^ 23 ≤ f.toNat then 2 ^ 23 else 0 := by
  have hmsb : f.getLsbD 23 = decide (2 ^ 23 ≤ f.toNat) := BitVec.msb_eq_decide f
  rw [show (0x800000 : BitVec 24) = BitVec.twoPow 24 23 from rfl, BitVec.and_twoPow, hmsb]
  simp only [decide_eq_true_eq]
  split <;> rfl

/-- `sample_bit` as one update, the shift as arithmetic. -/
theorem sampleBit_eq (s : State) (b : Bool) : s.sampleBit b =
    { s with shreg := if s.bitI.toNat < 24 then BitVec.ofNat 24 (2 * s.shreg.toNat + b.toNat) else s.shreg } := by
  have hshift : s.shreg.extractLsb' 0 23 ++ BitVec.ofBool b = BitVec.ofNat 24 (2 * s.shreg.toNat + b.toNat) := by
    apply BitVec.eq_of_toNat_eq
    have := b.toNat_lt
    rw [toNat_append_add, BitVec.extractLsb'_toNat, BitVec.toNat_ofBool, BitVec.toNat_ofNat, Nat.shiftRight_zero]
    omega
  rw [State.sampleBit, hshift]
  split <;> rfl

/-- The model's bookkeeping is the statements' `conversionBooked` (R111). -/
theorem convBookkeeping_eq_conversionBooked (s : State) : s.convBookkeeping = conversionBooked s := by
  rw [State.convBookkeeping, decode24_eq_toInt, BitVec.ofInt_add, BitVec.ofInt_toInt]
  rfl

/-! ## The conditions of a cycle -/

theorem lineFault_iff (s : State) (inp : CycleInput) :
    s.lineFault inp = true ↔ s.cfg.hasLineErr = true ∧ inp.lineErr = true := by
  rw [State.lineFault, Bool.and_eq_true]

theorem ready_iff (s : State) (dout : Bool) : s.ready dout = true ↔ dout = false ∧
    (s.rmode = .polling ∨ s.hasPrev = false ∨ s.guardUs.toNat * s.cfg.cycPerUs ≤ s.sinceLast.toNat) := by
  simp only [State.ready, State.guardOk, Bool.and_eq_true, Bool.or_eq_true, Bool.not_eq_true', decide_eq_true_eq, or_assoc]

theorem acceptsAbort_write_iff (s : State) (off : BitVec 8) (v : Word) :
    s.acceptsAbort (.write off v) = true ↔ off.toNat < 4 ∧ v = 0x0000000A ∧ s.phase = .waitRdy := by
  simp only [State.acceptsAbort, Bool.and_eq_true, decide_eq_true_eq, regAt_cmd_iff, and_assoc]

theorem endsConversion_of_phase_ne {s : State} (h : s.phase ≠ .clkLo) (inp : CycleInput) :
    s.endsConversion inp = false := by
  simp [State.endsConversion, h]

theorem endsConversion_of_lineFault {s : State} {inp : CycleInput} (h : s.lineFault inp = true) :
    s.endsConversion inp = false := by
  simp [State.endsConversion, h]

theorem endsConversion_of_not_transactionEnds {s : State} (h : ¬transactionEnds s) :
    s.endsConversion s.currentInput = false :=
  Bool.eq_false_iff.2 (mt (endsConversion_iff s).1 h)

/-! ## The order of a cycle (R101) -/

/-- A cycle whose access is no accepted ABORT: the access, the phase step on what it leaves, and the end of the cycle. -/
theorem step_of_access {s t u : State} (hr : s.currentInput.rst = false)
    (ha : s.acceptsAbort s.currentInput.access = false) (ht : hostAccess s.currentInput.access s = .next t)
    (hu : phaseStep s.phase s.currentInput t = .next u) :
    step s = .next (cycleEnd s u (s.endsConversion s.currentInput)) := by
  rw [← advance_tickSinceLast hr]
  simp only [step, clockCycle, clockEdge, hr, ht, ha, hu, andThen, Bool.false_eq_true, if_false]

/-- A cycle without a host write: the phase step and the end of the cycle. -/
theorem quietCycle.step_eq {s u : State} {p : Phase} (h : quietCycle s) (hp : s.phase = p)
    (hu : phaseStep p s.currentInput s = .next u) :
    step s = .next (cycleEnd s u (s.endsConversion s.currentInput)) := by
  obtain ⟨hr, ha⟩ := h
  subst hp
  cases hacc : s.currentInput.access with
  | write off v => rw [hacc] at ha; cases ha
  | idle => exact step_of_access hr (by rw [hacc]; rfl) (by rw [hacc]; rfl) hu
  | read off => exact step_of_access hr (by rw [hacc]; rfl) (by rw [hacc]; rfl) hu

/-- `quietCycle.step_eq` in a phase other than CLK_LO, where no transaction ends. -/
theorem quietCycle.step_of_phase_ne {s u : State} {p : Phase} (h : quietCycle s) (hp : s.phase = p) (hne : p ≠ .clkLo)
    (hu : phaseStep p s.currentInput s = .next u) : step s = .next (cycleEnd s u false) := by
  rw [h.step_eq hp hu, endsConversion_of_phase_ne (hp ▸ hne)]

/-! ## The end of a transaction and what is left of the low half (R107, R109) -/

theorem phaseStep_of_transactionEnds {s : State} (h : transactionEnds s) :
    phaseStep .clkLo s.currentInput s = endConv s := by
  obtain ⟨-, hf, hc, hb⟩ := h
  have hf' : ¬s.lineFault s.currentInput = true := Bool.eq_false_iff.1 hf
  rw [phaseStep, clkLoStep, if_neg hf', if_pos hc, if_neg (not_lt.2 hb)]

theorem phaseStep_of_not_transactionEnds {s : State} (hp : s.phase = .clkLo) (h : ¬transactionEnds s) :
    phaseStep .clkLo s.currentInput s = .next (
      if s.lineFault s.currentInput = true then s.enterRecovery
      else if s.cnt.toNat + 1 = s.cfg.tLow then { s with bitI := s.bitI + 1, sck := true, phase := .clkHi, cnt := 0 }
      else { s with cnt := s.cnt + 1 }) := by
  rw [phaseStep, clkLoStep]
  split
  · rfl
  · rename_i hf
    split
    · rename_i hc
      rw [if_pos]
      by_contra hb
      exact h ⟨hp, Bool.eq_false_iff.2 hf, hc, not_lt.1 hb⟩
    · rfl

/-- R113: a line fault while clocking, at any edge of a pulse. -/
theorem phaseStep_of_lineFault {s : State} {inp : CycleInput} (hp : s.phase = .clkHi ∨ s.phase = .clkLo)
    (hf : s.lineFault inp = true) : phaseStep s.phase inp s = .next s.enterRecovery := by
  rcases hp with hp | hp <;> rw [hp]
  · rw [phaseStep, clkHiStep, if_pos hf]
  · rw [phaseStep, clkLoStep, if_pos hf]

/-- A clocking cycle that neither fails nor ends the transaction goes on clocking, and only a low half ends a pulse
(R105, R107). -/
theorem phaseStep_clocking {s u : State} (hp : s.phase = .clkHi ∨ s.phase = .clkLo) (hf : noLineFault s)
    (hends : ¬transactionEnds s) (hb : s.bitI.toNat ≤ 23 + s.npulse.toNat)
    (hu : phaseStep s.phase s.currentInput s = .next u) :
    (u.phase = .clkHi ∨ u.phase = .clkLo) ∧ (u.bitI = s.bitI ∨ s.phase = .clkLo ∧ u.bitI.toNat = s.bitI.toNat + 1) := by
  have hf' : ¬s.lineFault s.currentInput = true := Bool.eq_false_iff.1 hf
  rcases hp with hp | hp <;> rw [hp] at hu
  · rw [phaseStep, clkHiStep, if_neg hf'] at hu
    cases hu
    split
    · exact ⟨.inr rfl, .inl (State.sampleBit_bitI ..)⟩
    · exact ⟨.inl hp, .inl rfl⟩
  · rw [phaseStep_of_not_transactionEnds hp hends, if_neg hf'] at hu
    cases hu
    split
    · have hnlt := s.npulse.isLt
      refine ⟨.inl rfl, .inr ⟨hp, ?_⟩⟩
      exact (BitVec.toNat_add _ _).trans (Nat.mod_eq_of_lt (by simp; omega))
    · exact ⟨.inr hp, .inl rfl⟩

theorem endConv_of_more {s : State} (h : s.nconv.toNat + 1 < s.times.toNat) :
    endConv s = .next (conversionBooked s).beginConv := by
  rw [endConv, if_pos h, convBookkeeping_eq_conversionBooked]

/-! ## The six timed phases (R121 to R126) -/

/-- The phases that last a number of cycles that a timing register gives. -/
def timedPhase : Phase → Bool
  | .pdHold | .puSettle | .wrapHi | .wrapLo | .recoverHi | .recoverLo => true
  | .idle | .waitRdy | .clkHi | .clkLo => false

/-- The cycles of a timed phase (R100, R121 to R126). -/
def State.phaseCycles (s : State) : Phase → Nat
  | .pdHold | .wrapHi | .recoverHi => duration s.cfg s.pdholdUs
  | .puSettle | .wrapLo | .recoverLo => duration s.cfg s.settleUs
  | .idle | .waitRdy | .clkHi | .clkLo => 1

/-- What the last cycle of a timed phase does (R121 to R126). -/
def State.phaseEnd (s : State) : Phase → State
  | .pdHold => State.complete { s with pwr := false, nsel := 0 } .none
  | .puSettle => State.complete { s with pwr := true } .none
  | .wrapHi => { s with pwr := false, nsel := 0, sck := false, phase := .wrapLo, cnt := 0 }
  | .wrapLo => { s with pwr := true, phase := .waitRdy, wcnt := 0 }
  | .recoverHi => { s with pwr := false, nsel := 0, sck := false, phase := .recoverLo, cnt := 0 }
  | .recoverLo => State.complete { s with pwr := true } .lineFault
  | .idle | .waitRdy | .clkHi | .clkLo => s

/-- The state with the counter of the timed phases at `n`. -/
def State.counted (s : State) (n : BitVec 64) : State := { s with cnt := n }

/-- A cycle of a timed phase. -/
def State.timedCycle (s : State) (p : Phase) : State :=
  if s.phaseCycles p ≤ s.cnt.toNat + 1 then s.phaseEnd p else s.counted (s.cnt + 1)

theorem phaseStep_timed {p : Phase} (hp : timedPhase p = true) (inp : CycleInput) (s : State) :
    phaseStep p inp s = .next (s.timedCycle p) := by
  cases p
  case idle | waitRdy | clkHi | clkLo => cases hp
  all_goals rfl

section
variable {s : State} {p : Phase} (h : quietCycle s) (hp : s.phase = p) (ht : timedPhase p = true)
include h hp ht

theorem quietCycle.step_timed : step s = .next (cycleEnd s (s.timedCycle p) false) :=
  h.step_of_phase_ne hp (by rintro rfl; cases ht) (phaseStep_timed ht _ _)

theorem quietCycle.step_phaseEnd (hb : s.phaseCycles p ≤ s.cnt.toNat + 1) :
    step s = .next (cycleEnd s (s.phaseEnd p) false) := by
  rw [h.step_timed hp ht, State.timedCycle, if_pos hb]

theorem quietCycle.step_counted (hb : ¬s.phaseCycles p ≤ s.cnt.toNat + 1) :
    step s = .next (cycleEnd s (s.counted (s.cnt + 1)) false) := by
  rw [h.step_timed hp ht, State.timedCycle, if_neg hb]

end

/-! ## `has_prev` and `since_last` (R114) -/

theorem IdleOutcome.keeps_lastConversion {i : Instr} {s t : State} (h : IdleOutcome i s t) :
    t.sinceLast = s.sinceLast ∧ t.hasPrev = s.hasPrev := by
  cases h with
  | unchanged ht => rw [ht]; exact ⟨rfl, rfl⟩
  | atOnce g r p k e ht => rw [ht]; exact ⟨rfl, rfl⟩
  | power l p ht => rw [ht]; exact ⟨rfl, rfl⟩
  | conversion op n ht => rw [ht, beginConv_eq]; exact ⟨rfl, rfl⟩

theorem hostAccess_idle_keeps_lastConversion {a : HostAccess} {s t : State} (hs : s.phase = .idle)
    (h : hostAccess a s = .next t) : t.sinceLast = s.sinceLast ∧ t.hasPrev = s.hasPrev := by
  rcases hostAccess_idle_cases hs h with ⟨_, _, _, _, _, rfl⟩ | ⟨off, v, -, -, ⟨i, -, hi⟩ | rfl⟩
  · exact ⟨rfl, rfl⟩
  · exact (exec_idle_cases hs hi).keeps_lastConversion
  · exact ⟨rfl, rfl⟩

theorem endConv_hasPrev {s u : State} (h : endConv s = .next u) : u.hasPrev = true := by
  unfold endConv at h
  split at h
  · cases h; simp
  · cases finish_cases h <;> simp [*]

/-- A phase step sets `has_prev` where it ends a transaction, and nowhere else (R111). -/
theorem phaseStep_hasPrev {s u : State} (h : phaseStep s.phase s.currentInput s = .next u) :
    u.hasPrev = (s.hasPrev || s.endsConversion s.currentInput) := by
  by_cases hends : transactionEnds s
  · rw [(endsConversion_iff s).2 hends, Bool.or_true]
    rw [hends.1, phaseStep_of_transactionEnds hends] at h
    exact endConv_hasPrev h
  · rw [endsConversion_of_not_transactionEnds hends, Bool.or_false]
    cases hp : s.phase <;> rw [hp] at h
    case clkLo =>
      rw [phaseStep_of_not_transactionEnds hp hends] at h
      cases h
      split_ifs <;> simp
    case idle => cases h; rfl
    case waitRdy => cases h; unfold waitRdyStep; split_ifs <;> simp
    case clkHi => cases h; unfold clkHiStep; split_ifs <;> simp
    all_goals
      rw [phaseStep_timed rfl] at h
      cases h
      unfold State.timedCycle
      split_ifs <;> rfl

theorem tickSinceLast_toNat (s : State) (b : Bool) : (s.tickSinceLast b).sinceLast.toNat =
    if b then 0 else min (s.sinceLast.toNat + 1) (2 ^ 64 - 1) := by
  cases b
  · rw [State.tickSinceLast, if_neg (by decide), if_neg (by decide)]
    exact Nat.mod_eq_of_lt (by omega)
  · rfl

/-! ## Runs -/

theorem run_add (i j : Nat) (s : State) :
    Host.Core.run core (i + j) s = andThen (Host.Core.run core i s) (Host.Core.run core j) := by
  induction i generalizing s with
  | zero => rw [Nat.zero_add]; rfl
  | succ i ih =>
    rw [Nat.add_right_comm, run_succ, run_succ]
    cases step s with
    | next t => exact ih t
    | fault r => rfl
    | refused r => rfl

theorem run_add_of_next {i j : Nat} {s t u : State} (hi : Host.Core.run core i s = .next t)
    (hj : Host.Core.run core j t = .next u) : Host.Core.run core (i + j) s = .next u := by
  rw [run_add, hi]
  exact hj

/-- What holds at the start and is handed on by each of `n` cycles holds in every state of the run. -/
theorem run_of_step {P : Nat → State → Prop} {n : Nat} {s : State} (h0 : P 0 s)
    (hstep : ∀ i t, i < n → P i t → ∃ t', step t = .next t' ∧ P (i + 1) t') {j : Nat} (hj : j ≤ n) :
    ∃ t, Host.Core.run core j s = .next t ∧ P j t := by
  induction j with
  | zero => exact ⟨s, rfl, h0⟩
  | succ j ih =>
    obtain ⟨t, hrun, ht⟩ := ih (by omega)
    obtain ⟨t', hst, ht'⟩ := hstep j t (by omega) ht
    exact ⟨t', run_succ_of_next hrun hst, ht'⟩

/-- No listed input is a reset. -/
def State.NoReset (s : State) : Prop := ∀ inp ∈ s.inputs, inp.rst = false

theorem State.NoReset.currentInput {s : State} (h : s.NoReset) : s.currentInput.rst = false := by
  unfold State.currentInput
  split
  · rename_i inp l hl
    exact h inp (by simp [hl])
  · rfl

/-- The state without the fields that the host and the end of a cycle change whatever the phase step does. -/
def State.besideHost (s : State) : State :=
  { s with rej := false, scaleStg := 0, sinceLast := 0, inputs := [], cycle := 0, rdata := none }

/-- `t` is `m` but for what the host and the ends of the cycles have changed, with no reset listed ahead. -/
structure State.Tracks (m t : State) : Prop where
  same : t.besideHost = m.besideHost
  noReset : t.NoReset

theorem State.Tracks.phase {m t : State} (h : m.Tracks t) : t.phase = m.phase := (congrArg State.phase h.same :)

theorem State.Tracks.sck {m t : State} (h : m.Tracks t) : t.sck = m.sck := (congrArg State.sck h.same :)

/-- A cycle outside IDLE and the readiness wait follows the phase step, whatever the host does. -/
theorem State.Tracks.step {m u t v : State} {p : Phase} (h : m.Tracks t) (hp : m.phase = p) (hi : p ≠ .idle)
    (hw : p ≠ .waitRdy) (hv : phaseStep p t.currentInput t = .next v) (hu : v.besideHost = u.besideHost) :
    ∃ t', step t = .next t' ∧ u.Tracks t' := by
  obtain ⟨r, k, hst⟩ := step_of_phaseStep h.noReset.currentInput (h.phase.trans hp) hi hw hv
  exact ⟨_, hst, hu, fun inp hinp => h.noReset inp (List.mem_of_mem_tail hinp)⟩

/-- A timed phase sees nothing that the host can change. -/
theorem timedCycle_besideHost (s : State) (p : Phase) :
    (s.timedCycle p).besideHost = (s.besideHost.timedCycle p).besideHost := by
  have hcycles : s.besideHost.phaseCycles p = s.phaseCycles p := by cases p <;> rfl
  have hend : (s.besideHost.phaseEnd p).besideHost = (s.phaseEnd p).besideHost := by cases p <;> rfl
  simp only [State.timedCycle, apply_ite State.besideHost, hcycles, hend]
  rfl

theorem duration_lt {c : Config} (h : c.cycPerUs < 2 ^ 32) (x : Word) : duration c x < 2 ^ 64 := by
  have : x.toNat * c.cycPerUs < 2 ^ 32 * 2 ^ 32 := Nat.mul_lt_mul'' x.isLt h
  unfold duration
  omega

theorem phaseCycles_pos (s : State) (p : Phase) : 0 < s.phaseCycles p := by
  cases p
  case idle | waitRdy | clkHi | clkLo => exact Nat.one_pos
  all_goals exact duration_pos _ _

theorem phaseCycles_lt {s : State} (h : s.cfg.cycPerUs < 2 ^ 32) (p : Phase) : s.phaseCycles p < 2 ^ 64 := by
  cases p
  case idle | waitRdy | clkHi | clkLo => exact Nat.one_lt_two_pow (by decide)
  all_goals exact duration_lt h _

theorem counted_phaseCycles (s : State) (n : BitVec 64) (p : Phase) :
    (s.counted n).phaseCycles p = s.phaseCycles p := by
  cases p <;> rfl

section
variable {m t : State} {p : Phase} (h : m.Tracks t) (hp : m.phase = p) (ht : timedPhase p = true)
include h hp ht

theorem State.Tracks.step_timed : ∃ t', Machine.step t = .next t' ∧ (m.timedCycle p).Tracks t' := by
  refine h.step hp (by rintro rfl; cases ht) (by rintro rfl; cases ht) (phaseStep_timed ht _ _) ?_
  rw [timedCycle_besideHost, h.same, ← timedCycle_besideHost]

variable {d : Nat} (hd : m.phaseCycles p = d) (hc : m.cnt = 0) (hcyc : m.cfg.cycPerUs < 2 ^ 32)
include hd hc hcyc

/-- A timed phase counts in each of its cycles but the last, whatever the host does. -/
theorem State.Tracks.run_counted {j : Nat} (hj : j < d) :
    ∃ t', Host.Core.run core j t = .next t' ∧ (m.counted (BitVec.ofNat 64 j)).Tracks t' := by
  have hlt := hd ▸ phaseCycles_lt hcyc p
  have hstart : m.counted 0 = m := by rw [← hc]; rfl
  refine run_of_step (P := fun i => (m.counted (BitVec.ofNat 64 i)).Tracks) (hstart.symm ▸ h) ?_ (Nat.le_sub_one_of_lt hj)
  intro i t hi hti
  have hcnt : (m.counted (BitVec.ofNat 64 i)).cnt.toNat = i := Nat.mod_eq_of_lt (by omega)
  have hcycle : (m.counted (BitVec.ofNat 64 i)).timedCycle p = m.counted (BitVec.ofNat 64 (i + 1)) := by
    rw [State.timedCycle, counted_phaseCycles, hcnt, if_neg (by omega), BitVec.ofNat_add]
    rfl
  rw [← hcycle]
  exact hti.step_timed hp ht

/-- The last cycle of a timed phase ends it (R121 to R126). -/
theorem State.Tracks.run_timed :
    ∃ (t' : State) (n : BitVec 64), Host.Core.run core d t = .next t' ∧ ((m.counted n).phaseEnd p).Tracks t' := by
  have hpos : 0 < d := hd ▸ phaseCycles_pos m p
  have hlt : d < 2 ^ 64 := hd ▸ phaseCycles_lt hcyc p
  obtain ⟨t₁, hrun, h₁⟩ := h.run_counted hp ht hd hc hcyc (Nat.sub_one_lt_of_lt hpos)
  obtain ⟨t₂, hst, h₂⟩ := h₁.step_timed hp ht
  have hcnt : (m.counted (BitVec.ofNat 64 (d - 1))).cnt.toNat = d - 1 := Nat.mod_eq_of_lt (by omega)
  rw [State.timedCycle, counted_phaseCycles, hcnt, if_pos (by omega)] at h₂
  have hlast := run_succ_of_next hrun hst
  rw [Nat.sub_add_cancel hpos] at hlast
  exact ⟨t₂, _, hlast, h₂⟩

end

/-! ## A wait with DOUT high (R104) -/

theorem phaseStep_waitRdy_of_dout {s : State} {inp : CycleInput} (hd : inp.dout = true) :
    phaseStep .waitRdy inp s = .next (
      if duration s.cfg s.timeoutUs ≤ s.wcnt.toNat + 1 then s.complete .timeout else { s with wcnt := s.wcnt + 1 }) := by
  rw [phaseStep, waitRdyStep, if_neg (by simp [State.ready, hd])]

/-- `s` in cycle `i` of a readiness wait. -/
def State.waited (s : State) (i : Nat) : State := { s with wcnt := BitVec.ofNat 64 i }

theorem waited_succ (s : State) (i : Nat) : s.waited (i + 1) = { s.waited i with wcnt := (s.waited i).wcnt + 1 } := by
  rw [State.waited, BitVec.ofNat_add]
  rfl

/-- `t` is cycle `i` of a wait that begins in `s`, and the rest of its D(TIMEOUT_US) cycles are listed, with a quiet
host, no reset and DOUT high in each. -/
structure State.InWait (s : State) (i : Nat) (t : State) : Prop where
  same : t.besideHost = (s.waited i).besideHost
  left : t.inputs.length + i = duration s.cfg s.timeoutUs
  high : ∀ inp ∈ t.inputs, inp.rst = false ∧ inp.dout = true ∧ quietAccess inp.access = true

theorem currentInput_mem {s : State} (h : s.inputs ≠ []) : s.currentInput ∈ s.inputs := by
  unfold State.currentInput
  split
  · simp [*]
  · contradiction

section
variable {s t : State} {i : Nat} (h : s.InWait i t) (hp : s.phase = .waitRdy) (hcyc : s.cfg.cycPerUs < 2 ^ 32)
  (hi : i < duration s.cfg s.timeoutUs)
include h hp hcyc hi

theorem State.InWait.step_eq : step t = .next (cycleEnd t (
    if duration s.cfg s.timeoutUs ≤ i + 1 then t.complete .timeout else { t with wcnt := t.wcnt + 1 }) false) := by
  have hne : t.inputs ≠ [] := by
    intro h0
    have := h.left
    rw [h0, List.length_nil] at this
    omega
  obtain ⟨hr, hd, ha⟩ := h.high _ (currentInput_mem hne)
  have hpt : t.phase = .waitRdy := (congrArg State.phase h.same :).trans hp
  have hdur : duration t.cfg t.timeoutUs = duration s.cfg s.timeoutUs :=
    (congrArg (fun u : State => duration u.cfg u.timeoutUs) h.same :)
  have hw : t.wcnt.toNat = i := by
    have hsame : t.wcnt = BitVec.ofNat 64 i := (congrArg State.wcnt h.same :)
    have := duration_lt hcyc s.timeoutUs
    rw [hsame]
    exact Nat.mod_eq_of_lt (by omega)
  rw [quietCycle.step_of_phase_ne ⟨hr, ha⟩ hpt (by decide) (phaseStep_waitRdy_of_dout hd), hw, hdur]

/-- A cycle of the wait but the last counts. -/
theorem State.InWait.step_counts (hlast : i + 1 < duration s.cfg s.timeoutUs) :
    ∃ t', step t = .next t' ∧ s.InWait (i + 1) t' := by
  refine ⟨_, h.step_eq hp hcyc hi, ?_, ?_, fun inp hinp => h.high inp (List.mem_of_mem_tail hinp)⟩
  · rw [if_neg (by omega), waited_succ]
    exact congrArg (fun u : State => { u with wcnt := u.wcnt + 1 }) h.same
  · have := h.left
    change t.inputs.tail.length + (i + 1) = _
    rw [List.length_tail]
    omega

/-- The last cycle of the wait fails the command (R104, R202). -/
theorem State.InWait.step_timeout (hlast : i + 1 = duration s.cfg s.timeoutUs) :
    ∃ t', step t = .next t' ∧ t'.besideHost = ((s.waited i).complete .timeout).besideHost := by
  refine ⟨_, h.step_eq hp hcyc hi, ?_⟩
  rw [if_pos hlast.ge]
  exact congrArg (fun u : State => u.complete .timeout) h.same

end

/-! ## The obligations: single cycles -/

/-- Settles O37: each form of R110 by the field's bit 23. -/
theorem sampleDecodingIsTwosComplement : Obligations.SampleDecodingIsTwosComplement := by
  intro f
  refine ⟨decode24_eq_toInt f, ?_, ?_, decode24_range f⟩
  · rw [decode24, toNat_and_sampleMagnitude, toNat_and_sampleSign]
    have := f.isLt
    split <;> omega
  · rw [decode24_eq_toInt, BitVec.toInt_signExtend_of_le (by decide)]

/-- Settles O22: an idle cycle is its access, and a write to CMD is `exec` of its command. -/
theorem idleStepRunsTheDecodedCommand : Obligations.IdleStepRunsTheDecodedCommand := by
  constructor
  · intro s t off v hp hr ha ht
    have hu : hostAccess s.currentInput.access s = .next t := by rw [ha]; exact ht
    rw [step_of_idle hr hp hu, advance_tickSinceLast hr]
  · intro s t off w i hp hr ha hoff hd ht
    rw [step_of_idle hr hp (ha ▸ (hostAccess_write_cmd hoff hd).trans ht), advance_tickSinceLast hr]

/-- Settles O23: the phase step is skipped where the access is an ABORT that the wait accepts, and only there. -/
theorem busyStepRunsCommandThenPhaseStep : Obligations.BusyStepRunsCommandThenPhaseStep := by
  constructor
  · intro s t off w i _ hr ha hoff hd ht
    have hacc : hostAccess s.currentInput.access s = .next t := ha ▸ (hostAccess_write_cmd hoff hd).trans ht
    constructor
    · rintro rfl hw
      have hab : s.acceptsAbort s.currentInput.access = true := by
        rw [ha, acceptsAbort_write_iff]
        exact ⟨hoff, (decode_abort_iff w).1 hd, hw⟩
      rw [(hostAccess_abort hab).1] at hacc
      rw [step_of_abort hr hab, advance_tickSinceLast hr, Host.Outcome.next.inj hacc]
    · intro hno u hu
      refine step_of_access hr ?_ hacc hu
      rw [ha, Bool.eq_false_iff, ne_eq, acceptsAbort_write_iff]
      rintro ⟨-, rfl, hw⟩
      exact hno ⟨Except.ok.inj (hd.symm.trans ((decode_abort_iff _).2 rfl)), hw⟩
  · intro s t u off v _ hr ha hno ht hu
    refine step_of_access hr ?_ (by rw [ha]; exact ht) hu
    rwa [ha, Bool.eq_false_iff, ne_eq, acceptsAbort_write_iff]

/-- Settles O25. -/
theorem quietIdleCycleChangesNothing : Obligations.QuietIdleCycleChangesNothing :=
  fun _ hp hq => hq.step_of_phase_ne hp (by decide) rfl

/-- Settles O28. -/
theorem readinessWaitStartsOrTimesOutOrCounts : Obligations.ReadinessWaitStartsOrTimesOutOrCounts := by
  intro s hp hq
  rw [hq.step_of_phase_ne hp (by decide) rfl, waitRdyStep]
  simp only [ready_iff]
  rfl

/-- Settles O29. -/
theorem highHalfSamplesAtItsLastCycle : Obligations.HighHalfSamplesAtItsLastCycle := by
  intro s hp hq
  rw [hq.step_of_phase_ne hp (by decide) rfl, clkHiStep]
  simp only [lineFault_iff, sampleBit_eq]
  rfl

/-- Settles O30: where the transaction does not end, the last low cycle has a pulse to go on to. -/
theorem lowHalfGoesToTheNextPulse : Obligations.LowHalfGoesToTheNextPulse := by
  intro s hp hq hends
  rw [hq.step_eq hp (phaseStep_of_not_transactionEnds hp hends), endsConversion_of_not_transactionEnds hends]
  simp only [lineFault_iff]
  rfl

/-- Settles O31: the transaction ends, its conversion is booked, and the next one begins. -/
theorem nonFinalConversionBooksAndBeginsTheNext : Obligations.NonFinalConversionBooksAndBeginsTheNext := by
  intro s hq hends hmore
  rw [hq.step_eq hends.1 ((phaseStep_of_transactionEnds hends).trans (endConv_of_more hmore)),
    (endsConversion_iff s).2 hends, beginConv_eq]
  rfl

/-- Settles O35. -/
theorem lineFaultAbandonsTheTransaction : Obligations.LineFaultAbandonsTheTransaction := by
  intro s hp hq herr hline
  have hf := (lineFault_iff s s.currentInput).2 ⟨herr, hline⟩
  rw [hq.step_eq rfl (phaseStep_of_lineFault hp hf), endsConversion_of_lineFault hf]
  rfl

/-- Settles O36: each clause is a cycle of a timed phase, at or before its bound. -/
theorem powerPhasesHoldThenMoveOn : Obligations.PowerPhasesHoldThenMoveOn := by
  intro s hq holdEnds settleEnds counted
  refine ⟨fun hp => hq.step_phaseEnd hp rfl, fun hp => hq.step_phaseEnd hp rfl, fun hp => hq.step_phaseEnd hp rfl,
    fun hp => hq.step_phaseEnd hp rfl, fun hp => hq.step_phaseEnd hp rfl, fun hp => hq.step_phaseEnd hp rfl, ?_, ?_⟩
  · rintro (hp | hp | hp) <;> exact hq.step_counted hp rfl
  · rintro (hp | hp | hp) <;> exact hq.step_counted hp rfl

/-- Settles O26, by the ways a step answers a next state: of these only the phase step can end a transaction. -/
theorem sinceLastCountsFromConversionEnd : Obligations.SinceLastCountsFromConversionEnd := by
  intro s t hr hst
  suffices h : t.sinceLast.toNat =
        (if s.endsConversion s.currentInput then 0 else min (s.sinceLast.toNat + 1) (2 ^ 64 - 1)) ∧
      t.hasPrev = (s.hasPrev || s.endsConversion s.currentInput) by
    obtain ⟨hs, hh⟩ := h
    constructor
    · intro he
      rw [(endsConversion_iff s).2 he] at hs hh
      exact ⟨BitVec.eq_of_toNat_eq hs, by rw [hh, Bool.or_true]⟩
    · intro he
      rw [endsConversion_of_not_transactionEnds he] at hs hh
      exact ⟨hs, by rw [hh, Bool.or_false]⟩
  cases step_cases hst with
  | reset hr' => simp [hr] at hr'
  | idle _ hp u hu ht =>
    obtain ⟨hs, hh⟩ := hostAccess_idle_keeps_lastConversion hp hu
    rw [ht, endsConversion_of_phase_ne (by simp [hp]), State.advance_sinceLast, tickSinceLast_toNat, hs]
    exact ⟨rfl, by simp [hh]⟩
  | abort _ hp ht =>
    rw [ht, endsConversion_of_phase_ne (by simp [hp]), State.advance_sinceLast, tickSinceLast_toNat]
    exact ⟨rfl, by simp⟩
  | busy _ hp r k u _ hu ht =>
    rw [ht, State.advance_sinceLast, tickSinceLast_toNat, ← phaseStep_hasPrev hu]
    refine ⟨?_, rfl⟩
    rw [State.marked_sinceLast, (phaseStep_frame hu).sinceLast]

/-- Settles O50: the step is a phase step of CLK_HI or of CLK_LO that neither fails nor ends the transaction. -/
theorem clockingRunsToItsEnd : Obligations.ClockingRunsToItsEnd := by
  intro s t hinv hp hr hf hends hst
  cases step_cases hst with
  | reset hr' => simp [hr] at hr'
  | idle _ hp' => simp [hp'] at hp
  | abort _ hp' => simp [hp'] at hp
  | busy _ _ r k u _ hu ht =>
    obtain ⟨hphase, hbit⟩ := phaseStep_clocking hp hf hends (hinv.pulse_index hp) hu
    rw [ht]
    exact ⟨hphase, (phaseStep_frame hu).npulse, hbit⟩

/-! ## The obligations: runs -/

/-- Settles O52: cycle j of a transaction is cycle j mod P of pulse j / P. -/
theorem transactionWaveform : Obligations.TransactionWaveform := by
  intro s j hp hsck hc hb hcyc hlow hj hlen hund
  have hs : s.Clocks := ⟨hp, hc, hb, tHigh_lt_of_cycPerUs_lt hcyc, hlow, hund⟩
  have hpos : 0 < s.pulseCycles := Nat.add_pos_left (tHigh_pos _) _
  have hdiv : j / s.pulseCycles * s.pulseCycles + j % s.pulseCycles = j := Nat.div_add_mod' _ _
  have hk : j / s.pulseCycles < 24 + s.npulse.toNat := (Nat.div_lt_iff_lt_mul hpos).2 hj
  obtain ⟨t, hrun, ht⟩ := hs.run (Nat.le_of_lt_succ (by omega)) (Nat.mod_lt j hpos) (hdiv.symm ▸ hlen)
  rw [hdiv] at hrun
  exact ⟨t, hrun, ht.sck hsck, ht.bitI⟩

/-- Settles O56: the wait counts in each of its cycles but the last, which fails the command. -/
theorem waitTimesOutAfterExactlyItsBound : Obligations.WaitTimesOutAfterExactlyItsBound := by
  intro s hp hw hsck hcyc hlen hin
  have hpos := duration_pos s.cfg s.timeoutUs
  have hstart : s.InWait 0 s := ⟨congrArg (fun w => State.besideHost { s with wcnt := w }) hw, hlen, hin⟩
  have hrun : ∀ j < duration s.cfg s.timeoutUs, ∃ t, Host.Core.run core j s = .next t ∧ s.InWait j t := by
    intro j hj
    exact run_of_step (P := s.InWait) hstart (fun i t hi ht => ht.step_counts hp hcyc (by omega) (by omega))
      (Nat.le_sub_one_of_lt hj)
  constructor
  · intro j hj
    obtain ⟨t, hrunj, ht⟩ := hrun j hj
    exact ⟨t, hrunj, (congrArg State.phase ht.same :).trans hp, (congrArg State.sck ht.same :).trans hsck⟩
  · obtain ⟨t, hrunj, ht⟩ := hrun _ (Nat.sub_one_lt_of_lt hpos)
    obtain ⟨t', hst, hsame⟩ := ht.step_timeout hp hcyc (Nat.sub_one_lt_of_lt hpos) (Nat.sub_add_cancel hpos)
    have hend := run_succ_of_next hrunj hst
    rw [Nat.sub_add_cancel hpos] at hend
    simp only [State.besideHost, State.waited, State.complete, State.mk.injEq] at hsame
    refine ⟨t', hend, ?_⟩
    simp only [hsame, hsck, and_self]

/-- Settles O57: the fault's edge enters RECOVER_HI, and the two halves of the recovery follow. -/
theorem lineFaultRecoversThenReports : Obligations.LineFaultRecoversThenReports := by
  intro s hp hcyc herr hline hno
  have hf := (lineFault_iff s s.currentInput).2 ⟨herr, hline⟩
  have hstart : s.Tracks s := ⟨rfl, hno⟩
  obtain ⟨t₁, hst, h₁⟩ := hstart.step rfl (by rcases hp with hp | hp <;> simp [hp])
    (by rcases hp with hp | hp <;> simp [hp]) (phaseStep_of_lineFault hp hf) rfl
  obtain ⟨t₂, n, hrun₂, h₂⟩ := h₁.run_timed (p := .recoverHi) (d := duration s.cfg s.pdholdUs) rfl rfl rfl rfl hcyc
  obtain ⟨t₃, n', hrun₃, h₃⟩ := h₂.run_timed (p := .recoverLo) (d := duration s.cfg s.settleUs) rfl rfl rfl rfl hcyc
  have hrun₁ : Host.Core.run core 1 s = .next t₁ := run_succ_of_next (j := 0) rfl hst
  refine ⟨t₃, run_add_of_next (run_add_of_next hrun₁ hrun₂) hrun₃, ?_⟩
  have hsame := h₃.same
  simp only [State.besideHost, State.phaseEnd, State.complete, State.counted, State.enterRecovery, State.mk.injEq] at hsame
  simp only [hsame, and_self]

/-- Settles O58: the two halves of the prologue, WRAP_HI and WRAP_LO. -/
theorem powerWrapPrologueLeadsToTheWait : Obligations.PowerWrapPrologueLeadsToTheWait := by
  intro s hp hc hsck hcyc hno
  have hstart : s.Tracks s := ⟨rfl, hno⟩
  obtain ⟨t₁, n, hrun₁, h₁⟩ := hstart.run_timed (d := duration s.cfg s.pdholdUs) hp rfl rfl hc hcyc
  obtain ⟨t₂, n', hrun₂, h₂⟩ := h₁.run_timed (p := .wrapLo) (d := duration s.cfg s.settleUs) rfl rfl rfl rfl hcyc
  have hrun := run_add_of_next hrun₁ hrun₂
  constructor
  · intro j hj
    rcases lt_or_ge j (duration s.cfg s.pdholdUs) with hlt | hge
    · obtain ⟨t, hrunj, ht⟩ := hstart.run_counted hp rfl rfl hc hcyc hlt
      exact ⟨t, hrunj, by rw [ht.sck, decide_eq_true hlt]; exact hsck⟩
    · rw [decide_eq_false (not_lt.2 hge)]
      rcases hj.lt_or_eq with hlt | rfl
      · obtain ⟨i, rfl⟩ := Nat.exists_eq_add_of_le hge
        obtain ⟨t, hrunj, ht⟩ := h₁.run_counted (p := .wrapLo) (d := duration s.cfg s.settleUs) rfl rfl rfl rfl hcyc
          (Nat.lt_of_add_lt_add_left hlt)
        exact ⟨t, run_add_of_next hrun₁ hrunj, ht.sck⟩
      · exact ⟨t₂, hrun, h₂.sck⟩
  · have hsame := h₂.same
    simp only [State.besideHost, State.phaseEnd, State.counted, State.mk.injEq] at hsame
    refine ⟨t₂, hrun, ?_⟩
    simp only [hsame, and_self]

end Sys2Proof.Machine
end

section
/-! # The conversion family: acceptance, the result rules, exact means, and READ_RAW as a run (41_conversion.md)

The facts come first, in the order of the definitions they speak of; the obligations are settled from them at the end. -/

namespace Sys2Proof.Machine

/-! ## Acceptance (R145) -/

theorem conversionStarted_npulse (s : State) (op : Opcode) (n : BitVec 16) :
    (conversionStarted s op n).npulse = gainBits s.gain := by
  cases hg : s.gain <;> simp only [conversionStarted, gainBits, hg]

/-- A command that passes the power gate starts its conversion, which clears REJ and ABT again (R145, R200). -/
theorem acceptConversion_clearRejAbt {s : State} (hp : s.pwr = true ∨ s.pwrap = true) (op : Opcode) (n : BitVec 16) :
    s.clearRejAbt.acceptConversion op n = conversionStarted s op n := by
  have hgate : ¬(s.clearRejAbt.pwr = false ∧ s.clearRejAbt.pwrap = false) := by
    rintro ⟨h1, h2⟩
    rcases hp with hp | hp
    · exact Bool.false_ne_true (h1.symm.trans hp)
    · exact Bool.false_ne_true (h2.symm.trans hp)
  rw [State.acceptConversion, if_neg hgate, beginConv_eq, State.clearRejAbt_gain, ← conversionStarted_npulse s op n]
  rfl

theorem acceptCounted_clearRejAbt {s : State} (hp : s.pwr = true ∨ s.pwrap = true) (op : Opcode) {n : Nat} (h1 : 1 ≤ n)
    (h2 : n ≤ 65535) :
    s.clearRejAbt.acceptCounted op (BitVec.ofNat 16 n) = conversionStarted s op (BitVec.ofNat 16 n) := by
  have hne : BitVec.ofNat 16 n ≠ 0 := by
    intro h0
    have := congrArg BitVec.toNat h0
    rw [BitVec.toNat_ofNat, Nat.mod_eq_of_lt (by omega)] at this
    exact absurd this (by simp; omega)
  rw [State.acceptCounted, if_neg hne, acceptConversion_clearRejAbt hp]

/-! ## The last edge of a command (R109, R144) -/

theorem acc_conversionBooked {s : State} (h : s.ConvInv) :
    (conversionBooked s).acc.toInt = s.acc.toInt + s.shreg.toInt := by
  rw [← convBookkeeping_eq_conversionBooked, h.acc_convBookkeeping, decode24_eq_toInt]

theorem transactionEnds.conv {s : State} (h : transactionEnds s) (hi : s.Inv) : s.ConvInv :=
  hi.conv (by rw [h.1]; rfl)

theorem State.ConvInv.times_ne_zero {s : State} (h : s.ConvInv) : s.times ≠ 0 := by
  intro h0
  have := h.conv_count
  simp [h0] at this

theorem endConv_of_last {s : State} (h : s.nconv.toNat + 1 = s.times.toNat) :
    endConv s = finish (conversionBooked s) := by
  rw [endConv, if_neg h.not_lt, convBookkeeping_eq_conversionBooked]

/-- The last edge of a command: the sample is booked, and the command's result rule does the rest. -/
theorem quietCycle.step_last {s u : State} (hq : quietCycle s) (hends : transactionEnds s)
    (hn : s.nconv.toNat + 1 = s.times.toNat) (hu : finish (conversionBooked s) = .next u) :
    step s = .next (cycleEnd s u true) := by
  rw [hq.step_eq hends.1 ((phaseStep_of_transactionEnds hends).trans ((endConv_of_last hn).trans hu)),
    (endsConversion_iff s).2 hends]

section
variable {s : State}

theorem finish_readRaw (ho : s.op = .readRaw) : finish s =
    .next (State.complete { s with resultInt := BitVec.ofInt 32 (s.acc.toInt + s.offset.toInt) } .none) :=
  (by simp only [finish, ho] : finish s = finishReadRaw s)

theorem finish_readRawAvg (ho : s.op = .readRawAvg) (ht : s.times ≠ 0) : finish s =
    .next (State.complete { s with result := s.meanWord } .none) :=
  (by simp only [finish, ho] : finish s = finishReadRawAvg s).trans (if_neg ht)

theorem finish_read (ho : s.op = .read) (hk : finiteNonzero s.scale = true) : finish s =
    .next (State.complete { s with result := rne64 ((s.sum + s.offsetVal) / val s.scale) } .none) :=
  (by simp only [finish, ho] : finish s = finishRead s).trans (if_neg (by simp [hk]))

theorem finish_readAvg (ho : s.op = .readAvg) (ht : s.times ≠ 0) (hk : finiteNonzero s.scale = true) : finish s =
    .next (State.complete { s with result := rne64 (val s.meanWord / val s.scale) } .none) :=
  (by simp only [finish, ho] : finish s = finishReadAvg s).trans ((if_neg ht).trans (if_neg (by simp [hk])))

theorem finish_tare (ho : s.op = .tare) (ht : s.times ≠ 0) : finish s =
    .next (State.complete { s with offset := BitVec.ofInt 32 (-(rndDiv s.acc.toInt s.times.toNat)) } .none) :=
  (by simp only [finish, ho] : finish s = finishTare s).trans (if_neg ht)

/-- A conversion command with a count and a divisor has a result (R144). -/
theorem finish_total (ho : convOpcode s.op = true) (ht : s.times ≠ 0) (hk : finiteNonzero s.scale = true) :
    ∃ u, finish s = .next u := by
  cases hop : s.op
  case readRaw => exact ⟨_, finish_readRaw hop⟩
  case readRawAvg => exact ⟨_, finish_readRawAvg hop ht⟩
  case read => exact ⟨_, finish_read hop hk⟩
  case readAvg => exact ⟨_, finish_readAvg hop ht hk⟩
  case tare => exact ⟨_, finish_tare hop ht⟩
  all_goals rw [hop] at ho; cases ho

end

/-! ## No phase step stops -/

theorem endConv_total {s : State} (hc : s.ConvInv) (hk : finiteNonzero s.scale = true) : ∃ u, endConv s = .next u := by
  unfold endConv
  split
  · exact ⟨_, rfl⟩
  · exact finish_total hc.conv_op hc.times_ne_zero hk

theorem phaseStep_total {s : State} (h : s.Inv) (inp : CycleInput) : ∃ u, phaseStep s.phase inp s = .next u := by
  cases hp : s.phase
  case clkLo =>
    rw [phaseStep, clkLoStep]
    split_ifs
    · exact ⟨_, rfl⟩
    · exact ⟨_, rfl⟩
    · exact endConv_total (h.conv (by rw [hp]; rfl)) h.scale_divisor
    · exact ⟨_, rfl⟩
  all_goals exact ⟨_, rfl⟩

/-! ## Who writes OFFSET -/

theorem finish_phase {s u : State} (h : finish s = .next u) : u.phase = .idle := by
  rcases finish_cases h with ⟨_, rfl⟩ | ⟨_, _, rfl⟩ | ⟨_, _, rfl⟩ | ⟨_, _, _, rfl⟩ | ⟨_, _, rfl⟩ <;> rfl

/-- A conversion that is not the command's last leaves OFFSET as it is (R109, R170). -/
theorem endConv_offset {s u : State} (h : endConv s = .next u) (hp : u.phase ≠ .idle) : u.offset = s.offset := by
  unfold endConv at h
  split at h
  · cases h; simp
  · exact absurd (finish_phase h) hp

/-! ## The value of a rounded dyadic number (R67, R160, R161) -/

theorem expField_eq (b : DWord) : expField b = b.toNat / 2 ^ 52 % 2 ^ 11 := by
  rw [expField, BitVec.extractLsb'_toNat, Nat.shiftRight_eq_div_pow]

theorem fracField_eq (b : DWord) : fracField b = b.toNat % 2 ^ 52 := by
  rw [fracField, BitVec.extractLsb'_toNat, Nat.shiftRight_eq_div_pow, pow_zero, Nat.div_one]

theorem signBit_eq (b : DWord) : signBit b = decide (2 ^ 63 ≤ b.toNat) := BitVec.msb_eq_decide b

/-- The value of a normal word with sign `sg` and significand `sig`, leading bit included: added to the fraction field, that
bit makes the exponent field `sh + 1`. -/
theorem val_of_normal {b : DWord} {sg : Bool} {sh sig : Nat} (hsh : sh < 2 ^ 11 - 1) (hlo : 2 ^ 52 ≤ sig)
    (hhi : sig < 2 ^ 53) (hb : b.toNat = sg.toNat * 2 ^ 63 + (sh * 2 ^ 52 + sig)) :
    val b = (if sg then -1 else 1) * (2 ^ ((sh : Int) - 1074) * (sig : Rat)) := by
  have hsg := sg.toNat_lt
  have he : expField b = sh + 1 := by rw [expField_eq]; omega
  have hf : fracField b = sig - 2 ^ 52 := by rw [fracField_eq]; omega
  have hs : signBit b = sg := by
    rw [signBit_eq, hb]
    cases sg
    · exact decide_eq_false (by simp; omega)
    · exact decide_eq_true (by simp)
  rw [val, he, hf, hs, if_neg sh.succ_ne_zero, Nat.cast_sub hlo, Nat.cast_succ, add_sub_assoc]
  push_cast
  ring_nf

/-- A quotient without remainder is not rounded (R162). -/
theorem rndDiv_mul_self (x : Int) {d : Nat} (hd : 0 < d) : rndDiv (x * d) d = x := by
  obtain ⟨h1, h2⟩ := rndDiv_range (x := x * d) hd le_rfl le_rfl
  exact h2.antisymm h1

theorem two_pow_53_le_overflowBound : 2 ^ 53 ≤ overflowBound := by
  have hpow (k : Nat) (hk : k ≤ 1023) : 2 ^ k ≤ 2 ^ 1023 := pow_le_pow_right₀ (by decide) hk
  calc 2 ^ 53 ≤ 2 ^ 1023 := hpow 53 (by decide)
    _ = 2 ^ 1023 * 2 - 2 ^ 1023 := by rw [Nat.mul_two, Nat.add_sub_cancel_left]
    _ ≤ 2 ^ 1023 * 2 - 2 ^ 970 := Nat.sub_le_sub_left (hpow 970 (by decide)) _
    _ = overflowBound := by rw [overflowBound, pow_succ 2 1023]

/-- A number scaled by a power of two, between the powers that its leading bit gives. -/
theorem scaled_bounds {n : Nat} (h0 : n ≠ 0) (k : Nat) :
    2 ^ (n.log2 + k) ≤ n * 2 ^ k ∧ n * 2 ^ k < 2 ^ (n.log2 + k + 1) := by
  rw [Nat.add_right_comm, pow_add 2 n.log2, pow_add 2 (n.log2 + 1)]
  exact ⟨Nat.mul_le_mul_right _ (Nat.log2_self_le h0), Nat.mul_lt_mul_of_pos_right Nat.lt_log2_self (Nat.two_pow_pos k)⟩

theorem log2_scaled {n : Nat} (h0 : n ≠ 0) (k : Nat) : (n * 2 ^ k).log2 = n.log2 + k :=
  (Nat.log2_eq_iff (mul_ne_zero h0 (Nat.two_pow_pos k).ne')).2 (scaled_bounds h0 k)

/-- The magnitude of n / 2^j is exact where n has at most 53 bits: its leading bit is scaled to weight 2^52 (R160). -/
theorem rneMagnitude_dyadic {n j : Nat} (h0 : n ≠ 0) (hn : n < 2 ^ 53) (hj : j ≤ 1022) :
    rneMagnitude n (2 ^ j) = (n.log2 + 1022 - j) * 2 ^ 52 + n * 2 ^ (52 - n.log2) := by
  have hlog : n.log2 < 53 := (Nat.log2_lt h0).2 hn
  have hfin : ¬overflowBound * 2 ^ j ≤ n :=
    not_le.2 (hn.trans_le (two_pow_53_le_overflowBound.trans (Nat.le_mul_of_pos_right _ (Nat.two_pow_pos j))))
  have hunits : n * 2 ^ 1074 / 2 ^ j = n * 2 ^ (1074 - j) := by
    refine Nat.div_eq_of_eq_mul_left (by positivity) ?_
    rw [mul_assoc, ← pow_add, Nat.sub_add_cancel (by omega)]
  have hsh : (n * 2 ^ (1074 - j)).log2 - 52 = n.log2 + 1022 - j := by
    rw [log2_scaled h0]
    omega
  have hsig : n * 2 ^ 1074 = n * 2 ^ (52 - n.log2) * (2 ^ j * 2 ^ (n.log2 + 1022 - j)) := by
    rw [mul_assoc, ← pow_add, ← pow_add, show 52 - n.log2 + (j + (n.log2 + 1022 - j)) = 1074 by omega]
  rw [rneMagnitude, if_neg hfin]
  simp only [hunits, hsh]
  rw [hsig, Nat.cast_mul, rndDiv_mul_self _ (by positivity), Int.toNat_natCast]

theorem val_rne64_zero : val (rne64 0) = 0 := by
  have hm : rneMagnitude 0 1 = 0 := by
    have hfin : ¬overflowBound * 1 ≤ 0 := not_le.2 (by have := two_pow_53_le_overflowBound; omega)
    rw [rneMagnitude, if_neg hfin]
    simp only [zero_mul, Nat.zero_div]
    decide
  simp [rne64, hm, val, expField, fracField]

theorem sign_mul_natAbs_num (q : Rat) : (if decide (q < 0) then -1 else 1) * (q.num.natAbs : Rat) = q.num := by
  rw [Nat.cast_natAbs]
  by_cases hneg : q < 0
  · rw [abs_of_neg (Rat.num_neg.2 hneg)]
    simp [hneg]
  · rw [abs_of_nonneg (Rat.num_nonneg.2 (not_lt.1 hneg))]
    simp [hneg]

/-- A nonzero magnitude is encoded beside the sign of q (R160). -/
theorem toNat_rne64 {q : Rat} {m : Nat} (hm : rneMagnitude q.num.natAbs q.den = m) (h0 : m ≠ 0) (hlt : m < 2 ^ 63) :
    (rne64 q).toNat = (decide (q < 0)).toNat * 2 ^ 63 + m := by
  rw [rne64, hm]
  by_cases hneg : q < 0
  · rw [if_pos ⟨hneg, h0⟩, decide_eq_true hneg, BitVec.toNat_ofNat, Bool.toNat_true]
    omega
  · rw [if_neg (fun h => hneg h.1), decide_eq_false hneg, BitVec.toNat_ofNat, Bool.toNat_false]
    omega

/-- RNE64 is exact on the fractions n / 2^j with at most 53 bits (R160). -/
theorem val_rne64_dyadic {q : Rat} {j : Nat} (hden : q.den = 2 ^ j) (hj : j ≤ 1022) (hnum : q.num.natAbs < 2 ^ 53) :
    val (rne64 q) = q := by
  rcases eq_or_ne q 0 with rfl | hq
  · exact val_rne64_zero
  have h0 : q.num.natAbs ≠ 0 := Int.natAbs_ne_zero.2 (Rat.num_ne_zero.2 hq)
  have hlog : q.num.natAbs.log2 < 53 := (Nat.log2_lt h0).2 hnum
  obtain ⟨hlo, hhi⟩ := scaled_bounds h0 (52 - q.num.natAbs.log2)
  rw [Nat.add_sub_cancel' (Nat.le_of_lt_succ hlog)] at hlo hhi
  have hbits := toNat_rne64 (hden ▸ rneMagnitude_dyadic h0 hnum hj) (by omega) (by omega)
  have hexp : (2 : Rat) ^ (((q.num.natAbs.log2 + 1022 - j : Nat) : Int) - 1074) * 2 ^ (52 - q.num.natAbs.log2) =
      (2 ^ j)⁻¹ := by
    rw [← zpow_natCast, ← zpow_natCast 2 j, ← zpow_neg, ← zpow_add₀ two_ne_zero]
    exact congrArg (HPow.hPow (2 : Rat)) (by omega)
  have hval := q.num_div_den
  rw [hden, Nat.cast_pow, Nat.cast_ofNat, div_eq_mul_inv] at hval
  rw [val_of_normal (by omega) hlo hhi hbits, Nat.cast_mul, Nat.cast_pow, Nat.cast_ofNat,
    mul_left_comm (2 ^ _ : Rat), ← mul_assoc, hexp, sign_mul_natAbs_num, hval]

/-! ## Quiet runs -/

/-- No listed input is a reset or has a host write. -/
def State.QuietAhead (s : State) : Prop := ∀ inp ∈ s.inputs, inp.rst = false ∧ quietAccess inp.access = true

theorem State.QuietAhead.quietCycle {s : State} (h : s.QuietAhead) : quietCycle s := by
  unfold Machine.quietCycle State.currentInput
  split
  · rename_i inp l hl
    exact h inp (by simp [hl])
  · exact ⟨rfl, rfl⟩

theorem step_inputs {s t : State} (h : step s = .next t) : t.inputs = s.inputs.tail := by
  cases step_cases h with
  | reset _ ht => rw [ht]; rfl
  | idle _ _ u _ ht => rw [ht]; rfl
  | abort _ _ ht => rw [ht]; rfl
  | busy _ _ r k u _ _ ht => rw [ht]; rfl

/-- Without a host write REJ stays as it is (R201). -/
theorem quietCycle.step_rej {s t : State} (hq : quietCycle s) (h : step s = .next t) : t.rej = s.rej := by
  obtain ⟨hr, ha⟩ := hq
  rw [step_of_quiet hr (fun off v hacc => by rw [hacc] at ha; cases ha)] at h
  obtain ⟨u, hu, ht⟩ := andThen_next_iff.1 h
  cases ht
  obtain ⟨hrej, -⟩ := phaseStep_keeps hu
  exact hrej

/-- What every step keeps holds at the end of a run. -/
theorem run_keeps {P : State → Prop} (hstep : ∀ s t, P s → step s = .next t → P t) {j : Nat} {s t : State} (h : P s)
    (hrun : Host.Core.run core j s = .next t) : P t := by
  induction j generalizing s with
  | zero => cases hrun; exact h
  | succ j ih =>
    rw [run_succ] at hrun
    obtain ⟨u, hu, hrun⟩ := andThen_next_iff.1 hrun
    exact ih (hstep s u h hu) hrun

/-- A run with a quiet host keeps the invariant and REJ. -/
theorem State.QuietAhead.run {j : Nat} {s t : State} (hq : s.QuietAhead) (hinv : s.Inv)
    (hrun : Host.Core.run core j s = .next t) : t.QuietAhead ∧ t.Inv ∧ t.rej = s.rej := by
  refine run_keeps (P := fun t => t.QuietAhead ∧ t.Inv ∧ t.rej = s.rej) ?_ ⟨hq, hinv, rfl⟩ hrun
  rintro u v ⟨hqu, hiu, hru⟩ huv
  exact ⟨fun inp hinp => hqu inp (List.mem_of_mem_tail (step_inputs huv ▸ hinp)), everyStepKeepsInvariant u v hiu huv,
    (hqu.quietCycle.step_rej huv).trans hru⟩

/-! ## A wait that ends with DOUT low (R104) -/

theorem doutAt_currentInput {s t : State} {i : Nat} (hin : t.inputs = s.inputs.drop i) (hi : i < s.inputs.length) :
    t.currentInput.dout = doutAt s.inputs i := by
  rw [State.currentInput, hin, List.drop_eq_getElem_cons hi, doutAt, List.getElem?_eq_getElem hi]

/-- `s` at the start of a transaction. -/
def State.clockingStarted (s : State) : State :=
  { s with sck := true, phase := .clkHi, cnt := 0, bitI := 0, shreg := 0 }

theorem phaseStep_waitRdy_of_ready {s : State} {inp : CycleInput} (h : s.ready inp.dout = true) :
    phaseStep .waitRdy inp s = .next s.clockingStarted := by
  rw [phaseStep, waitRdyStep, if_pos h, State.clockingStarted]

/-- `t` is cycle `i` of a wait that begins in `s`, with a quiet host. -/
structure State.Waits (s : State) (i : Nat) (t : State) : Prop where
  same : t.besideHost = (s.waited i).besideHost
  inputs : t.inputs = s.inputs.drop i
  quiet : t.QuietAhead

section
variable {s t : State} {i : Nat} (h : s.Waits i t) (hp : s.phase = .waitRdy) (hi : i < s.inputs.length)
include h hp hi

/-- A cycle with DOUT high counts while the bound is ahead. -/
theorem State.Waits.step_counts (hcyc : s.cfg.cycPerUs < 2 ^ 32) (hd : doutAt s.inputs i = true)
    (hlast : i + 1 < duration s.cfg s.timeoutUs) : ∃ t', step t = .next t' ∧ s.Waits (i + 1) t' := by
  have hpt : t.phase = .waitRdy := (congrArg State.phase h.same :).trans hp
  have hdur : duration t.cfg t.timeoutUs = duration s.cfg s.timeoutUs :=
    (congrArg (fun u : State => duration u.cfg u.timeoutUs) h.same :)
  have hw : t.wcnt.toNat = i := by
    have hsame : t.wcnt = BitVec.ofNat 64 i := (congrArg State.wcnt h.same :)
    have := duration_lt hcyc s.timeoutUs
    rw [hsame]
    exact Nat.mod_eq_of_lt (by omega)
  have hu := phaseStep_waitRdy_of_dout (s := t) ((doutAt_currentInput h.inputs hi).trans hd)
  rw [hw, hdur, if_neg (by omega)] at hu
  have hst := h.quiet.quietCycle.step_of_phase_ne hpt (by decide) hu
  refine ⟨_, hst, ?_, ?_, fun inp hinp => h.quiet inp (List.mem_of_mem_tail hinp)⟩
  · rw [waited_succ]
    exact congrArg (fun u : State => { u with wcnt := u.wcnt + 1 }) h.same
  · rw [step_inputs hst, h.inputs, List.tail_drop]

/-- A cycle with DOUT low starts the transaction in polling mode (R103). -/
theorem State.Waits.step_starts (hmode : s.rmode = .polling) (hd : doutAt s.inputs i = false) :
    ∃ t', step t = .next t' ∧ t'.besideHost = (s.waited i).clockingStarted.besideHost ∧
      t'.inputs = s.inputs.drop (i + 1) := by
  have hpt : t.phase = .waitRdy := (congrArg State.phase h.same :).trans hp
  have hready : t.ready t.currentInput.dout = true := by
    rw [ready_iff]
    exact ⟨(doutAt_currentInput h.inputs hi).trans hd, .inl ((congrArg State.rmode h.same :).trans hmode)⟩
  have hst := h.quiet.quietCycle.step_of_phase_ne hpt (by decide) (phaseStep_waitRdy_of_ready hready)
  refine ⟨_, hst, congrArg State.clockingStarted h.same, ?_⟩
  rw [step_inputs hst, h.inputs, List.tail_drop]

end

/-- A wait in polling mode starts the transaction at the end of the first cycle with DOUT low, `w`, if that is before the
bound (R104). -/
theorem State.QuietAhead.run_wait {s : State} {w : Nat} (hq : s.QuietAhead) (hp : s.phase = .waitRdy) (hw : s.wcnt = 0)
    (hmode : s.rmode = .polling) (hcyc : s.cfg.cycPerUs < 2 ^ 32) (hdur : w < duration s.cfg s.timeoutUs)
    (hlen : w < s.inputs.length) (hhigh : ∀ k < w, doutAt s.inputs k = true) (hlow : doutAt s.inputs w = false) :
    ∃ t : State, Host.Core.run core (w + 1) s = .next t ∧ t.besideHost = (s.waited w).clockingStarted.besideHost ∧
      t.inputs = s.inputs.drop (w + 1) := by
  have hstart : s.Waits 0 s := ⟨congrArg (fun x => State.besideHost { s with wcnt := x }) hw, rfl, hq⟩
  obtain ⟨t, hrun, ht⟩ := run_of_step (P := s.Waits) (n := w) hstart
    (fun i u hi hu => hu.step_counts hp (by omega) hcyc (hhigh i hi) (by omega)) le_rfl
  obtain ⟨t', hst, ht'⟩ := ht.step_starts hp hlen hmode hlow
  exact ⟨t', run_succ_of_next hrun hst, ht'⟩

/-! ## A conversion to the end of its transaction (R104 to R107, R116) -/

/-- The run to the last low cycle of the last pulse. -/
theorem State.Clocks.run_to_end {s : State} (hs : s.Clocks)
    (hlen : (24 + s.npulse.toNat) * s.pulseCycles ≤ s.inputs.length) :
    ∃ t : State, Host.Core.run core ((24 + s.npulse.toNat) * s.pulseCycles - 1) s = .next t ∧ transactionEnds t ∧
      t.besideClocking = s.besideClocking ∧ t.shreg = s.shiftedIn 24 ∧ (s.sck = true → t.sck = false) := by
  have hhigh := tHigh_pos s.cfg
  have hlow := tLow_pos s.cfg
  have hpulse : s.pulseCycles = s.cfg.tHigh + s.cfg.tLow := rfl
  have hend : (24 + s.npulse.toNat) * s.pulseCycles - 1 =
      (23 + s.npulse.toNat) * s.pulseCycles + (s.pulseCycles - 1) := by
    rw [show 24 + s.npulse.toNat = 23 + s.npulse.toNat + 1 by omega, Nat.succ_mul]
    omega
  have hge : ¬s.pulseCycles - 1 < s.cfg.tHigh := by omega
  obtain ⟨t, hrun, ht⟩ := hs.run (k := 23 + s.npulse.toNat) (i := s.pulseCycles - 1) le_rfl (by omega) (by omega)
  obtain ⟨-, hf⟩ := ht.no_reset_no_fault hs (by omega)
  refine ⟨t, hend ▸ hrun, ⟨?_, hf, ?_, ?_⟩, ht.frame, ?_, fun hsck => ?_⟩
  · rw [ht.phase, if_neg hge]
  · rw [ht.cnt, if_neg hge, ht.cfg]; omega
  · rw [ht.npulse, ht.bitI]
  · rw [ht.shreg, if_neg hge, State.shiftedIn, State.shiftedIn, Nat.min_eq_right (by omega), Nat.min_eq_right le_rfl]
  · rw [ht.sck hsck, decide_eq_false hge]

/-- A conversion from the start of its wait, in whose cycle `w` DOUT goes low, to the last cycle of its transaction. -/
theorem State.QuietAhead.run_conversion {s : State} {w : Nat} (hq : s.QuietAhead) (hp : s.phase = .waitRdy)
    (hw : s.wcnt = 0) (hmode : s.rmode = .polling) (hcyc : s.cfg.cycPerUs < 2 ^ 32) (htlow : s.cfg.tLow ≤ 2 ^ 64)
    (hund : ∀ inp ∈ s.inputs, undisturbed s.cfg inp = true) (hdur : w < duration s.cfg s.timeoutUs)
    (hlen : w + 1 + s.clockCycles ≤ s.inputs.length) (hhigh : ∀ k < w, doutAt s.inputs k = true)
    (hlow : doutAt s.inputs w = false) :
    ∃ t : State, Host.Core.run core (w + s.clockCycles) s = .next t ∧ transactionEnds t ∧
      t.besideClocking = (s.waited w).besideClocking ∧ t.shreg = sampledField s.cfg (s.inputs.drop (w + 1)) ∧
      t.sck = false := by
  obtain ⟨c, hrunc, hsame, hinc⟩ := hq.run_wait hp hw hmode hcyc hdur (by omega) hhigh hlow
  have hcfg : c.cfg = s.cfg := (congrArg State.cfg hsame :)
  have hcycles : (24 + c.npulse.toNat) * c.pulseCycles = s.clockCycles := (congrArg State.clockCycles hsame :)
  have hpos : 0 < s.clockCycles := Nat.mul_pos (by omega) (Nat.add_pos_left (tHigh_pos _) _)
  have hc : c.Clocks :=
    { phase := (congrArg State.phase hsame :)
      cnt := (congrArg State.cnt hsame :)
      bitI := (congrArg State.bitI hsame :)
      tHigh_lt := hcfg ▸ tHigh_lt_of_cycPerUs_lt hcyc
      tLow_le := hcfg ▸ htlow
      undisturbed := fun inp hinp => hcfg ▸ hund inp (List.mem_of_mem_drop (hinc ▸ hinp)) }
  obtain ⟨t, hrun, hends, hframe, hshreg, hsck⟩ := hc.run_to_end (by rw [hcycles, hinc, List.length_drop]; omega)
  rw [hcycles] at hrun
  have hall := run_add_of_next hrunc hrun
  rw [show w + 1 + (s.clockCycles - 1) = w + s.clockCycles by omega] at hall
  refine ⟨t, hall, hends, hframe.trans (congrArg State.besideClocking hsame :), ?_, hsck (congrArg State.sck hsame :)⟩
  have hzero : c.shreg = 0 := (congrArg State.shreg hsame :)
  rw [hshreg]
  simp [State.shiftedIn, hzero, hcfg, hinc, sampledField]

/-! ## The cycle in which READ_RAW is written (R145) -/

/-- The state after the cycle in which READ_RAW is accepted (R145, R5). -/
def State.readRawAccepted (s : State) : State := cycleEnd s (conversionStarted s .readRaw 1) false

theorem step_readRaw {s : State} (hr : s.currentInput.rst = false)
    (hacc : s.currentInput.access = .write 0x00 0x00000002) (hp : s.phase = .idle) (hpwr : s.pwr = true) :
    step s = .next s.readRawAccepted := by
  have hu : hostAccess s.currentInput.access s = .next (conversionStarted s .readRaw 1) := by
    rw [hacc, hostAccess_write_cmd (by decide) (i := .readRaw) rfl, exec, execReadRaw, onCommand_idle hp,
      acceptConversion_clearRejAbt (.inl hpwr)]
  rw [step_of_idle hr hp hu, advance_tickSinceLast hr, State.readRawAccepted]

theorem readRawAccepted_waits {s : State} (hwrap : s.pwrap = false) :
    s.readRawAccepted.phase = .waitRdy ∧ s.readRawAccepted.wcnt = 0 := by
  simp [State.readRawAccepted, cycleEnd, conversionStarted, hwrap]

theorem readRawAccepted_npulse (s : State) : s.readRawAccepted.npulse = gainBits s.gain :=
  conversionStarted_npulse s .readRaw 1

/-! ## The obligations -/

/-- Settles O12: each command passes the count check and the power gate. -/
theorem conversionCommandsAreAccepted : Obligations.ConversionCommandsAreAccepted := by
  intro s n hs hp h1 h2
  simp only [exec, execReadRaw, execRead, execReadRawAvg, execReadAvg, execTare, onCommand_idle hs,
    acceptConversion_clearRejAbt hp, acceptCounted_clearRejAbt hp _ h1 h2, and_self]

/-- Settles O32: one sample and OFFSET stay far below 32 bits. -/
theorem readRawWritesSampleSumPlusOffset : Obligations.ReadRawWritesSampleSumPlusOffset := by
  intro s h hq hends ho
  have hc := hends.conv h
  have hone := hc.conv_single (.inl ho)
  have hzero : s.nconv.toNat = 0 := by simpa [hone] using hc.conv_count
  have hn : s.nconv.toNat + 1 = s.times.toNat := by rw [hzero, hone]; rfl
  refine ⟨_, ?_, hq.step_last hends hn (finish_readRaw ho)⟩
  have hacc := hc.conv_acc
  have hf := decode24_range s.shreg
  have hrange := h.offset_range
  have hoff : (conversionBooked s).offset = s.offset := rfl
  rw [hzero] at hacc
  rw [decode24_eq_toInt] at hf
  rw [acc_conversionBooked hc, hoff, BitVec.toInt_ofInt_eq_self (by decide) (by omega) (by omega)]

/-- Settles O33: each result rule, on the booked state. -/
theorem realResultsAreRoundedQuotients : Obligations.RealResultsAreRoundedQuotients := by
  intro s h hq hends hn total o mean done
  have hc := hends.conv h
  have hsum : (conversionBooked s).sum = total := by rw [State.sum, acc_conversionBooked hc]
  have hmean : (conversionBooked s).meanWord = mean := by rw [State.meanWord, hsum]; rfl
  refine ⟨fun ho => ?_, fun ho => ?_, fun ho => ?_⟩
  · rw [hq.step_last hends hn (finish_readRawAvg ho hc.times_ne_zero), hmean]
    rfl
  · rw [hq.step_last hends hn (finish_read ho h.scale_divisor), hsum]
    rfl
  · rw [hq.step_last hends hn (finish_readAvg ho hc.times_ne_zero h.scale_divisor), hmean]
    rfl

/-- Settles O40: total / 2^k + OFFSET is a fraction over 2^k whose numerator has at most 41 bits. -/
theorem powerOfTwoMeansAreExact : Obligations.PowerOfTwoMeansAreExact := by
  intro total o k hk ht ho
  have hq : (total : Rat) / 2 ^ k + o = Rat.divInt (total + o * 2 ^ k) (2 ^ k) := by
    rw [Rat.divInt_eq_div]
    push_cast
    field_simp
  generalize hx : total + o * 2 ^ k = x at hq
  have hbound : |x| < 2 ^ 53 := by
    have hpow : (2 : Int) ^ k ≤ 2 ^ 16 := pow_le_pow_right₀ (by decide) hk
    have hterm : |o * 2 ^ k| ≤ 2 ^ 23 * 2 ^ k := by
      rw [abs_mul, abs_of_pos (show (0 : Int) < 2 ^ k by positivity)]
      exact mul_le_mul_of_nonneg_right ho (by positivity)
    have hsum := abs_add_le total (o * 2 ^ k)
    rw [hx] at hsum
    omega
  have hnum : (Rat.divInt x (2 ^ k)).num.natAbs < 2 ^ 53 := by
    rcases eq_or_ne x 0 with rfl | hx
    · simp
    have hle := Int.natAbs_le_of_dvd_ne_zero (Rat.num_dvd x (pow_ne_zero k two_ne_zero)) hx
    rw [Int.abs_eq_natAbs] at hbound
    omega
  have hden : (Rat.divInt x (2 ^ k)).den ∣ 2 ^ k := by exact_mod_cast Rat.den_dvd x (2 ^ k)
  obtain ⟨j, hj, hden⟩ := (Nat.dvd_prime_pow Nat.prime_two).1 hden
  rw [hq]
  exact val_rne64_dyadic hden (by omega) hnum

/-- Settles O43: the host's access always answers, and the invariant gives the phase step what its result rule needs. -/
theorem everyStepAnswersANextState : Obligations.EveryStepAnswersANextState := by
  intro s h
  cases hr : s.currentInput.rst with
  | true => exact ⟨_, step_of_rst hr⟩
  | false =>
    by_cases hp : s.phase = .idle
    · obtain ⟨u, hu⟩ := hostAccess_total s.currentInput.access s
      exact ⟨_, step_of_idle hr hp hu⟩
    · cases ha : s.acceptsAbort s.currentInput.access with
      | true => exact ⟨_, step_of_abort hr ha⟩
      | false =>
        obtain ⟨r, k, -, -, hst⟩ := step_of_busy hr hp ha
        obtain ⟨u, hu⟩ := phaseStep_total h s.currentInput
        rw [hst, hu]
        exact ⟨_, rfl⟩

/-- Settles O48: no phase step writes a configuration register, and a result rule that writes OFFSET completes. -/
theorem configurationIsConstantWhileBusy : Obligations.ConfigurationIsConstantWhileBusy := by
  intro s t hr hp hst
  cases step_cases hst with
  | reset hr' => simp [hr] at hr'
  | idle _ hp' => exact absurd hp' hp
  | abort _ _ ht => simp [ht]
  | busy _ _ r k u _ hu ht =>
    have hf := phaseStep_frame hu
    have hoff : u.phase ≠ .idle → u.offset = s.offset := by
      intro hne
      rcases phaseStep_sameResults_or_endConv hu with hsame | ⟨-, hend⟩
      · exact hsame.offset
      · exact endConv_offset hend hne
    rw [ht]
    exact ⟨hf.gain, hf.rmode, hf.pwrap, hf.scale, hf.timeoutUs, hf.guardUs, hf.settleUs, hf.pdholdUs, hf.cfg, hoff⟩

/-- Settles O54: the accepting edge, the wait, the transaction, and its last edge, by
`readRawWritesSampleSumPlusOffset`. -/
theorem readRawFromWriteToResult : Obligations.ReadRawFromWriteToResult := by
  intro s w first rest hinv hp hpwr hwrap hmode hcyc hlow hin hacc hrst hw hdur hlen hrest hhigh hdlow
  obtain ⟨w, rfl⟩ := Nat.exists_eq_add_of_le' hw
  have hcur : s.currentInput = first := by simp only [State.currentInput, hin]
  have hst := step_readRaw (hcur ▸ hrst) (hcur ▸ hacc) hp hpwr
  have hina : s.readRawAccepted.inputs = rest := by rw [step_inputs hst, hin, List.tail_cons]
  have hqa : s.readRawAccepted.QuietAhead := by
    intro inp hinp
    obtain ⟨hund, hquiet⟩ := hrest inp (hina ▸ hinp)
    simp only [undisturbed, Bool.and_eq_true, Bool.not_eq_true'] at hund
    exact ⟨hund.1, hquiet⟩
  have hcycles : rest.length = w + 1 + s.readRawAccepted.clockCycles := by
    rw [hlen, State.clockCycles, readRawAccepted_npulse]
    rfl
  obtain ⟨hwait, hwcnt⟩ := readRawAccepted_waits hwrap
  obtain ⟨t, hrun, hends, hframe, hshreg, hsck⟩ := hqa.run_conversion hwait hwcnt hmode hcyc hlow
    (fun inp hinp => (hrest inp (hina ▸ hinp)).1) hdur (by rw [hina, hcycles])
    (by rw [hina]; exact fun k hk => hhigh k (by omega)) (by rw [hina]; exact hdlow)
  obtain ⟨hqt, hinvt, hrej⟩ := hqa.run (everyStepKeepsInvariant _ _ hinv hst) hrun
  obtain ⟨r, hr, hlast⟩ :=
    readRawWritesSampleSumPlusOffset t hinvt hqt.quietCycle hends (congrArg State.op hframe :)
  have hall := run_add_of_next (run_succ_of_next (j := 0) rfl hst) (run_succ_of_next hrun hlast)
  rw [show 0 + 1 + (w + s.readRawAccepted.clockCycles + 1) = 1 + rest.length by omega] at hall
  have hfield : t.shreg = sampledField s.cfg (rest.drop (w + 1)) := by rw [hshreg, hina]; rfl
  have hzero : t.acc.toInt = 0 := congrArg BitVec.toInt (congrArg State.acc hframe :)
  have hoff : t.offset = s.offset := (congrArg State.offset hframe :)
  have hnpulse : t.npulse = s.readRawAccepted.npulse := (congrArg State.npulse hframe :)
  rw [hzero, zero_add, hfield, hoff] at hr
  exact ⟨_, hall, rfl, rfl, rfl, hrej, (congrArg State.abt hframe :), hsck, congrArg (BitVec.signExtend 32) hfield, hr,
    hnpulse.trans (readRawAccepted_npulse s), (congrArg State.result hframe :), hoff, (congrArg State.scale hframe :)⟩

end Sys2Proof.Machine
end

section
/-! # The calibration family: rounding to an integer and to binary64, TARE and SET_SCALE (42_calibration.md)

The facts come first, in the order of the definitions they speak of; the obligations are settled from them at the end. -/

namespace Sys2Proof.Machine

/-! ## The nearest integer to a quotient (R162) -/

section
variable (s : Int) {n : Nat} (hn : 1 ≤ n)
include hn

/-- The distance of `rndDiv s n` from s / n, cleared of its denominator. -/
theorem abs_rndDiv_sub_mul : 2 * |(rndDiv s n : Rat) - (s : Rat) / n| * n = |2 * (s - rndDiv s n * n)| := by
  have hpos : (0 : Rat) < n := by exact_mod_cast hn
  have hclear : (rndDiv s n : Rat) - (s : Rat) / n = -(s - rndDiv s n * n) / n := by field_simp; ring
  rw [hclear, abs_div, abs_of_pos hpos, abs_neg, mul_assoc, div_mul_cancel₀ _ hpos.ne']
  push_cast
  rw [abs_mul, abs_two]

theorem abs_rndDiv_sub_le : |(rndDiv s n : Rat) - (s : Rat) / n| ≤ 1 / 2 := by
  obtain ⟨hlo, hhi, -⟩ := rndDiv_spec s hn
  have hpos : (0 : Rat) < n := by exact_mod_cast hn
  have hint : ((|2 * (s - rndDiv s n * n)| : Int) : Rat) ≤ n := by exact_mod_cast abs_le.2 ⟨hlo, hhi⟩
  rw [← abs_rndDiv_sub_mul s hn] at hint
  have hle := le_of_mul_le_mul_right (hint.trans_eq (one_mul _).symm) hpos
  linarith

theorem rndDiv_even_of_tie (h : |(rndDiv s n : Rat) - (s : Rat) / n| = 1 / 2) : rndDiv s n % 2 = 0 := by
  obtain ⟨-, -, heven⟩ := rndDiv_spec s hn
  have hint := abs_rndDiv_sub_mul s hn
  rw [h, mul_one_div_cancel two_ne_zero, one_mul] at hint
  have habs : |2 * (s - rndDiv s n * n)| = (n : Int) := by exact_mod_cast hint.symm
  exact heven ((abs_eq (by omega)).1 habs)

end

/-- An integer within 1/2 of a rational is no farther from it than another, and a tie puts both at 1/2 (R162). -/
theorem nearest_of_abs_sub_le_half {r m : Int} {x : Rat} (h : |(r : Rat) - x| ≤ 1 / 2) (hne : m ≠ r) :
    |(r : Rat) - x| ≤ |(m : Rat) - x| ∧ (|(r : Rat) - x| = |(m : Rat) - x| → |(r : Rat) - x| = 1 / 2) := by
  have hgap : (1 : Rat) ≤ |(m : Rat) - r| := by exact_mod_cast Int.one_le_abs (sub_ne_zero.2 hne)
  have htri := abs_sub_le (m : Rat) x r
  rw [abs_sub_comm x] at htri
  constructor
  · linarith
  · intro htie
    linarith

theorem rndDiv_nearest (s : Int) {n : Nat} (hn : 1 ≤ n) (m : Int) :
    |(rndDiv s n : Rat) - (s : Rat) / n| ≤ |(m : Rat) - (s : Rat) / n| := by
  rcases eq_or_ne m (rndDiv s n) with rfl | hne
  · exact le_rfl
  · exact (nearest_of_abs_sub_le_half (abs_rndDiv_sub_le s hn) hne).1

theorem rndDiv_even_of_equidistant (s : Int) {n : Nat} (hn : 1 ≤ n) {m : Int} (hne : m ≠ rndDiv s n)
    (h : |(rndDiv s n : Rat) - (s : Rat) / n| = |(m : Rat) - (s : Rat) / n|) : rndDiv s n % 2 = 0 :=
  rndDiv_even_of_tie s hn ((nearest_of_abs_sub_le_half (abs_rndDiv_sub_le s hn) hne).2 h)

/-- Two integers nearest to one rational, both even in a tie, are the same: neighbours are not both even. -/
theorem eq_of_nearest_even {a b : Int} {x : Rat} (ha : |(a : Rat) - x| ≤ 1 / 2) (hb : |(b : Rat) - x| ≤ 1 / 2)
    (ha2 : |(a : Rat) - x| = 1 / 2 → a % 2 = 0) (hb2 : |(b : Rat) - x| = 1 / 2 → b % 2 = 0) : a = b := by
  by_contra hne
  have hhalf : |(a : Rat) - x| = 1 / 2 ∧ |(b : Rat) - x| = 1 / 2 := by
    have hab := (nearest_of_abs_sub_le_half ha (Ne.symm hne)).1
    have hba := (nearest_of_abs_sub_le_half hb hne).1
    exact ⟨(nearest_of_abs_sub_le_half ha (Ne.symm hne)).2 (hab.antisymm hba),
      (nearest_of_abs_sub_le_half hb hne).2 (hba.antisymm hab)⟩
  have hgap : |a - b| ≤ 1 := by
    have htri := abs_sub_le (a : Rat) x b
    rw [abs_sub_comm x] at htri
    have hle : |(a : Rat) - b| ≤ 1 := by linarith
    exact_mod_cast hle
  have ha0 := ha2 hhalf.1
  have hb0 := hb2 hhalf.2
  rw [abs_le] at hgap
  omega

theorem rndDiv_neg (s : Int) {n : Nat} (hn : 1 ≤ n) : rndDiv (-s) n = -rndDiv s n := by
  have hflip : |((-rndDiv s n : Int) : Rat) - ((-s : Int) : Rat) / n| = |(rndDiv s n : Rat) - (s : Rat) / n| := by
    rw [← abs_neg]
    push_cast
    ring_nf
  refine eq_of_nearest_even (abs_rndDiv_sub_le (-s) hn) (hflip.trans_le (abs_rndDiv_sub_le s hn))
    (rndDiv_even_of_tie (-s) hn) fun h => ?_
  have heven := rndDiv_even_of_tie s hn (hflip.symm.trans h)
  omega

/-! ## The magnitude of RNE64 in units of 2^-1074 (R160) -/

/-- The power of two that scales the significand of n / d, in units of 2^-1074: 0 for the subnormals. -/
def rneShift (n d : Nat) : Nat := Nat.log2 (n * 2 ^ 1074 / d) - 52

/-- The divisor that takes n in units of 2^-1074 to the scale of its significand. -/
def rneDivisor (n d : Nat) : Nat := d * 2 ^ rneShift n d

/-- The weight of the significand's last bit. -/
def rneUlp (n d : Nat) : Rat := 2 ^ ((rneShift n d : Int) - 1074)

/-- The significand n / d is rounded to. -/
def rneSignificand (n d : Nat) : Nat := (rndDiv ((n * 2 ^ 1074 : Nat) : Int) (rneDivisor n d)).toNat

/-- The magnitude the significand stands for. -/
def rneValue (n d : Nat) : Rat := rneUlp n d * (rneSignificand n d : Rat)

theorem rneUlp_pos (n d : Nat) : 0 < rneUlp n d := zpow_pos two_pos _

theorem rneMagnitude_of_ge {n d : Nat} (h : overflowBound * d ≤ n) : rneMagnitude n d = 0x7FF * 2 ^ 52 := if_pos h

theorem rneMagnitude_of_lt {n d : Nat} (h : n < overflowBound * d) :
    rneMagnitude n d = rneShift n d * 2 ^ 52 + rneSignificand n d := if_neg (not_le.2 h)

/-- In units of 2^-1074 the threshold of R160 lies half a unit below 2^53 at the largest scale. -/
theorem overflowBound_scaled : 2 * (overflowBound * 2 ^ 1074) = (2 ^ 54 - 1) * 2 ^ 2045 := by
  have hbound : overflowBound = (2 ^ 54 - 1) * 2 ^ 970 := by rw [overflowBound, Nat.sub_mul, ← pow_add, one_mul]
  rw [hbound, mul_assoc, ← pow_add, mul_left_comm, ← pow_succ']

section
variable (n : Nat) {d : Nat} (hd : 0 < d)
include hd

theorem rneDivisor_pos : 1 ≤ rneDivisor n d := Nat.mul_pos hd (Nat.two_pow_pos _)

theorem cast_rneSignificand :
    (rneSignificand n d : Int) = rndDiv ((n * 2 ^ 1074 : Nat) : Int) (rneDivisor n d) :=
  Int.toNat_of_nonneg (rndDiv_nonneg _ (rneDivisor_pos n hd))

theorem rneSignificand_le : rneSignificand n d ≤ 2 ^ 53 := rndDiv_significand_le (n * 2 ^ 1074) hd

/-- Where the significand is scaled, the number has 53 bits before its point. -/
theorem rneDivisor_scaled_le (hsh : rneShift n d ≠ 0) : 2 ^ 52 * rneDivisor n d ≤ n * 2 ^ 1074 := by
  have hlog : 52 + rneShift n d = Nat.log2 (n * 2 ^ 1074 / d) :=
    Nat.add_sub_of_le (Nat.le_of_lt (Nat.sub_ne_zero_iff_lt.1 hsh))
  have hne : n * 2 ^ 1074 / d ≠ 0 := fun h0 => hsh (by rw [rneShift, h0]; rfl)
  calc 2 ^ 52 * rneDivisor n d = 2 ^ (52 + rneShift n d) * d := by rw [rneDivisor, pow_add]; ring
    _ ≤ n * 2 ^ 1074 := (Nat.le_div_iff_mul_le hd).1 (hlog ▸ Nat.log2_self_le hne)

theorem le_rneSignificand (hsh : rneShift n d ≠ 0) : 2 ^ 52 ≤ rneSignificand n d := by
  have hD : (1 : Int) ≤ rneDivisor n d := by exact_mod_cast rneDivisor_pos n hd
  have hle : (2 ^ 52 : Int) * rneDivisor n d ≤ (n * 2 ^ 1074 : Nat) := by
    exact_mod_cast rneDivisor_scaled_le n hd hsh
  have hlo := (rndDiv_range (rneDivisor_pos n hd) hle (le_mul_of_one_le_right (Int.natCast_nonneg _) hD)).1
  rw [← cast_rneSignificand n hd] at hlo
  exact_mod_cast hlo

/-- n / d is its scaled quotient times the weight of the significand's last bit. -/
theorem div_eq_rneUlp_mul : (n : Rat) / d = rneUlp n d * ((((n * 2 ^ 1074 : Nat) : Int) : Rat) / rneDivisor n d) := by
  have hd0 : (d : Rat) ≠ 0 := by exact_mod_cast hd.ne'
  rw [rneUlp, zpow_sub₀ two_ne_zero, zpow_natCast, rneDivisor, Int.cast_natCast, Nat.cast_mul, Nat.cast_mul,
    Nat.cast_pow, Nat.cast_pow, Nat.cast_ofNat]
  field_simp

end

/-- Below the overflow threshold the significand does not carry into the exponent of infinity (R160). -/
theorem rneMagnitude_lt {n d : Nat} (hd : 0 < d) (h : n < overflowBound * d) : rneMagnitude n d < 0x7FF * 2 ^ 52 := by
  have hsig := rneSignificand_le n hd
  have hsh : rneShift n d ≤ 2045 := by
    have hlt := log2_scaled_lt (k := 1074) (h.trans_le (Nat.mul_le_mul_right d (Nat.sub_le _ _))) (by decide)
    unfold rneShift
    omega
  rw [rneMagnitude_of_lt h]
  rcases hsh.lt_or_eq with hsh | hsh
  · omega
  · have hne : rneSignificand n d ≠ 2 ^ 53 := by
      intro heq
      have hspec := (rndDiv_spec ((n * 2 ^ 1074 : Nat) : Int) (rneDivisor_pos n hd)).1
      have hlt : 2 * (n * 2 ^ 1074) < (2 ^ 54 - 1) * rneDivisor n d := by
        calc 2 * (n * 2 ^ 1074) < 2 * (overflowBound * d * 2 ^ 1074) := by gcongr
          _ = 2 * (overflowBound * 2 ^ 1074) * d := by rw [mul_right_comm overflowBound, mul_assoc 2]
          _ = (2 ^ 54 - 1) * rneDivisor n d := by
            rw [overflowBound_scaled, rneDivisor, hsh, mul_assoc, mul_comm d]
      rw [← cast_rneSignificand n hd, heq] at hspec
      generalize rneDivisor n d = D at hspec hlt
      generalize n * 2 ^ 1074 = u at hspec hlt
      omega
    omega

/-! ## The nearest element of F (R160) -/

/-- F of R160: the finite binary64 values. -/
def IsBinary64 (v : Rat) : Prop := ∃ m e : Int, |m| < 2 ^ 53 ∧ -1074 ≤ e ∧ e ≤ 971 ∧ v = m * 2 ^ e

theorem IsBinary64.neg {v : Rat} : IsBinary64 v → IsBinary64 (-v) := by
  rintro ⟨m, e, hm, hlo, hhi, rfl⟩
  exact ⟨-m, e, by rwa [abs_neg], hlo, hhi, by push_cast; ring⟩

/-- No element of F is nearer to `x` than `w`, and another as near asks for `even`. -/
def NearestEven (w x : Rat) (even : Prop) : Prop :=
  ∀ v, IsBinary64 v → |w - x| ≤ |v - x| ∧ (|w - x| = |v - x| → v ≠ w → even)

theorem NearestEven.neg {w x : Rat} {even : Prop} (h : NearestEven w x even) : NearestEven (-w) (-x) even := by
  intro v hv
  obtain ⟨hle, htie⟩ := h (-v) hv.neg
  have hw : |-w - -x| = |w - x| := by rw [neg_sub_neg, abs_sub_comm]
  have hflip : |v - -x| = |-v - x| := by rw [← abs_neg]; ring_nf
  rw [hw, hflip]
  exact ⟨hle, fun heq hne => htie heq fun h => hne (by rw [← h, neg_neg])⟩

section
variable (n : Nat) {d : Nat} (hd : 0 < d)
include hd

/-- Among the multiples of the last bit's weight `rneValue` is the nearest, by `rndDiv_nearest`. -/
theorem rneValue_nearest_multiple (k : Int) :
    |rneValue n d - (n : Rat) / d| ≤ |rneUlp n d * k - (n : Rat) / d| ∧
      (|rneValue n d - (n : Rat) / d| = |rneUlp n d * k - (n : Rat) / d| → rneUlp n d * k ≠ rneValue n d →
        rneSignificand n d % 2 = 0) := by
  have hD := rneDivisor_pos n hd
  have hsig := cast_rneSignificand n hd
  have hulp := abs_pos.2 (rneUlp_pos n d).ne'
  rw [rneValue, ← Int.cast_natCast (rneSignificand n d), hsig, div_eq_rneUlp_mul n hd, ← mul_sub, ← mul_sub, abs_mul,
    abs_mul]
  refine ⟨mul_le_mul_of_nonneg_left (rndDiv_nearest _ hD k) hulp.le, fun heq hne => ?_⟩
  have heven := rndDiv_even_of_equidistant _ hD (fun hk => hne (by rw [hk])) (mul_left_cancel₀ hulp.ne' heq)
  rw [← hsig] at heven
  exact_mod_cast heven

/-- A number below every significand of the scale is farther off than the least of them. -/
theorem rneValue_nearer_of_below (hsh : rneShift n d ≠ 0) {v : Rat} (hv : v < rneUlp n d * (2 ^ 52 : Int)) :
    |rneValue n d - (n : Rat) / d| < |v - (n : Rat) / d| := by
  have hleast : rneUlp n d * (2 ^ 52 : Int) ≤ (n : Rat) / d := by
    have hD : (0 : Rat) < rneDivisor n d := by exact_mod_cast rneDivisor_pos n hd
    rw [div_eq_rneUlp_mul n hd]
    refine mul_le_mul_of_nonneg_left ((le_div_iff₀ hD).2 ?_) (rneUlp_pos n d).le
    exact_mod_cast rneDivisor_scaled_le n hd hsh
  calc |rneValue n d - (n : Rat) / d|
      ≤ |rneUlp n d * (2 ^ 52 : Int) - (n : Rat) / d| := (rneValue_nearest_multiple n hd (2 ^ 52)).1
    _ = (n : Rat) / d - rneUlp n d * (2 ^ 52 : Int) := by rw [abs_of_nonpos (sub_nonpos.2 hleast), neg_sub]
    _ < (n : Rat) / d - v := sub_lt_sub_left hv _
    _ = |v - (n : Rat) / d| := by rw [abs_of_neg (sub_neg.2 (hv.trans_le hleast)), neg_sub]

/-- An element of F is a multiple of the last bit's weight, or lies below every significand of the scale. -/
theorem rneValue_nearestEven : NearestEven (rneValue n d) ((n : Rat) / d) (rneSignificand n d % 2 = 0) := by
  rintro v ⟨m, e, hm, hlo, -, rfl⟩
  rcases le_or_gt ((rneShift n d : Int) - 1074) e with he | he
  · obtain ⟨j, rfl⟩ := Int.le.dest he
    have hmul : (m : Rat) * 2 ^ ((rneShift n d : Int) - 1074 + j) = rneUlp n d * ((m * 2 ^ j : Int) : Rat) := by
      rw [rneUlp, zpow_add₀ two_ne_zero, zpow_natCast]
      push_cast
      ring
    rw [hmul]
    exact rneValue_nearest_multiple n hd _
  · have hbelow : (m : Rat) * 2 ^ e < rneUlp n d * (2 ^ 52 : Int) := by
      have hm' : (m : Rat) < 2 ^ 53 := by exact_mod_cast (le_abs_self m).trans_lt hm
      calc (m : Rat) * 2 ^ e < 2 ^ 53 * 2 ^ e := mul_lt_mul_of_pos_right hm' (by positivity)
        _ = 2 ^ (e + 1) * (2 ^ 52 : Int) := by rw [zpow_add_one₀ two_ne_zero]; push_cast; ring
        _ ≤ rneUlp n d * (2 ^ 52 : Int) := by
          unfold rneUlp
          gcongr
          · norm_num
          · omega
    have hlt := rneValue_nearer_of_below n hd (by omega) hbelow
    exact ⟨hlt.le, fun heq => absurd heq hlt.ne⟩

end

/-! ## The word RNE64 gives (R160, R161) -/

theorem val_zero : val 0 = 0 := by simp [val, expField, fracField]

theorem finite_of_lt {b : DWord} (h : b.toNat % 2 ^ 63 < 0x7FF * 2 ^ 52) : finite b = true := by
  rw [finite, decide_eq_true_eq, expField_eq]
  omega

theorem signBit_of_toNat {b : DWord} {sg : Bool} {m : Nat} (hm : m < 2 ^ 63) (hb : b.toNat = sg.toNat * 2 ^ 63 + m) :
    signBit b = sg := by
  rw [signBit_eq, hb]
  cases sg
  · exact decide_eq_false (by simpa using hm)
  · exact decide_eq_true (by simp)

theorem val_of_subnormal {b : DWord} {sg : Bool} {sig : Nat} (hsig : sig < 2 ^ 52)
    (hb : b.toNat = sg.toNat * 2 ^ 63 + sig) : val b = (if sg then -1 else 1) * (2 ^ (-1074 : Int) * (sig : Rat)) := by
  have he : expField b = 0 := by rw [expField_eq]; have := sg.toNat_lt; omega
  have hf : fracField b = sig := by rw [fracField_eq]; omega
  rw [val, if_pos he, hf, signBit_of_toNat (by omega) hb, mul_assoc]

/-- The value of a finite word in all its forms: a subnormal one, a normal one, and one whose significand carries into the
exponent field. -/
theorem val_of_significand {b : DWord} {sg : Bool} {sh sig : Nat} (hlo : sh ≠ 0 → 2 ^ 52 ≤ sig) (hhi : sig ≤ 2 ^ 53)
    (hfin : sh * 2 ^ 52 + sig < 0x7FF * 2 ^ 52) (hb : b.toNat = sg.toNat * 2 ^ 63 + (sh * 2 ^ 52 + sig)) :
    val b = (if sg then -1 else 1) * (2 ^ ((sh : Int) - 1074) * (sig : Rat)) := by
  rcases lt_or_ge sig (2 ^ 52) with hsub | hnormal
  · obtain rfl : sh = 0 := by_contra fun h => absurd (hlo h) (not_le.2 hsub)
    rw [Nat.zero_mul, Nat.zero_add] at hb
    exact val_of_subnormal hsub hb
  · rcases hhi.lt_or_eq with hlt | rfl
    · exact val_of_normal (by omega) hnormal hlt hb
    · have hcarry : b.toNat = sg.toNat * 2 ^ 63 + ((sh + 1) * 2 ^ 52 + 2 ^ 52) := by rw [hb]; ring
      rw [val_of_normal (by omega) le_rfl (by norm_num) hcarry, Nat.cast_succ, add_sub_right_comm,
        zpow_add_one₀ two_ne_zero]
      push_cast
      ring

theorem abs_eq_natAbs_div (q : Rat) : |q| = (q.num.natAbs : Rat) / q.den :=
  (Rat.abs_def q).trans (Rat.divInt_eq_div ..)

section
variable {q : Rat}

theorem rne64_of_magnitude_zero (h : rneMagnitude q.num.natAbs q.den = 0) : rne64 q = 0 := by
  rw [rne64, h]
  simp

theorem rne64_zero : rne64 0 = 0 := by
  refine rne64_of_magnitude_zero ?_
  have hpos : 0 < overflowBound := (Nat.two_pow_pos 53).trans_le two_pow_53_le_overflowBound
  have hsh : rneShift 0 1 = 0 := by rw [rneShift, Nat.zero_mul]; rfl
  have hsig : rneSignificand 0 1 = 0 := by rw [rneSignificand, rneDivisor, hsh, Nat.zero_mul]; rfl
  exact (rneMagnitude_of_lt (n := 0) (d := 1) (by omega)).trans (by rw [hsh, hsig]; rfl)

theorem rne64_of_ge (h : overflowBound * q.den ≤ q.num.natAbs) :
    rne64 q = if q < 0 then 0xFFF0000000000000 else 0x7FF0000000000000 := by
  rw [rne64, rneMagnitude_of_ge h]
  by_cases hneg : q < 0
  · simp [hneg]
  · simp [hneg]

variable (h : q.num.natAbs < overflowBound * q.den)
include h

theorem toNat_rne64_mod : (rne64 q).toNat % 2 ^ 63 = rneMagnitude q.num.natAbs q.den := by
  have hlt := rneMagnitude_lt q.den_pos h
  rcases eq_or_ne (rneMagnitude q.num.natAbs q.den) 0 with h0 | h0
  · rw [rne64_of_magnitude_zero h0, h0]; rfl
  · rw [toNat_rne64 rfl h0 (by omega)]
    omega

theorem val_rne64 : val (rne64 q) = (if q < 0 then -1 else 1) * rneValue q.num.natAbs q.den := by
  have hlt := rneMagnitude_lt q.den_pos h
  have hm := rneMagnitude_of_lt h
  rcases eq_or_ne (rneMagnitude q.num.natAbs q.den) 0 with h0 | h0
  · have hsig : rneSignificand q.num.natAbs q.den = 0 := by omega
    rw [rne64_of_magnitude_zero h0, val_zero, rneValue, hsig, Nat.cast_zero, mul_zero, mul_zero]
  · have hb := toNat_rne64 rfl h0 (by omega)
    rw [hm] at hb hlt
    rw [val_of_significand (le_rneSignificand _ q.den_pos) (rneSignificand_le _ q.den_pos) hlt hb, rneValue, rneUlp]
    simp only [decide_eq_true_eq]

theorem finite_rne64 : finite (rne64 q) = true :=
  finite_of_lt ((toNat_rne64_mod h).trans_lt (rneMagnitude_lt q.den_pos h))

/-- The lowest bit of the word is the lowest of the significand, also where that carries. -/
theorem getLsbD_zero_rne64 (heven : rneSignificand q.num.natAbs q.den % 2 = 0) : (rne64 q).getLsbD 0 = false := by
  have hmod := toNat_rne64_mod h
  have hm := rneMagnitude_of_lt h
  rw [BitVec.getLsbD, Nat.testBit_zero, decide_eq_false_iff_not]
  omega

theorem getLsbD_sign_rne64 (hne : val (rne64 q) ≠ 0) : (rne64 q).getLsbD 63 = true ↔ q < 0 := by
  have hlt := rneMagnitude_lt q.den_pos h
  have h0 : rneMagnitude q.num.natAbs q.den ≠ 0 := fun h0 => hne (by rw [rne64_of_magnitude_zero h0, val_zero])
  have hs : (rne64 q).getLsbD 63 = decide (q < 0) := signBit_of_toNat (by omega) (toNat_rne64 rfl h0 (by omega))
  rw [hs, decide_eq_true_eq]

/-- The magnitude of q is rounded to nearest, and F and the distances are symmetric in the sign. -/
theorem rne64_nearestEven : NearestEven (val (rne64 q)) q ((rne64 q).getLsbD 0 = false) := by
  have hmag : NearestEven (rneValue q.num.natAbs q.den) |q| ((rne64 q).getLsbD 0 = false) := by
    intro v hv
    obtain ⟨hle, htie⟩ := rneValue_nearestEven _ q.den_pos v hv
    rw [abs_eq_natAbs_div q]
    exact ⟨hle, fun heq hne => getLsbD_zero_rne64 h (htie heq hne)⟩
  rw [val_rne64 h]
  by_cases hneg : q < 0
  · rw [abs_of_neg hneg] at hmag
    simpa only [if_pos hneg, neg_one_mul, neg_neg] using hmag.neg
  · rw [abs_of_nonneg (not_lt.1 hneg)] at hmag
    rwa [if_neg hneg, one_mul]

end

theorem cast_overflowBound : (overflowBound : Rat) = 2 ^ 1024 - 2 ^ 970 := by
  rw [overflowBound, Nat.cast_sub (Nat.pow_le_pow_right two_pos (by decide))]
  simp only [Nat.cast_pow, Nat.cast_ofNat]

/-- The model's test for overflow is R160's. -/
theorem lt_overflow_iff (q : Rat) : q.num.natAbs < overflowBound * q.den ↔ |q| < 2 ^ 1024 - 2 ^ 970 := by
  rw [← cast_overflowBound, abs_eq_natAbs_div, div_lt_iff₀ (by exact_mod_cast q.den_pos)]
  exact_mod_cast Iff.rfl

theorem overflowBound_pos : (0 : Rat) < 2 ^ 1024 - 2 ^ 970 := by
  rw [← cast_overflowBound]
  exact_mod_cast (Nat.two_pow_pos 53).trans_le two_pow_53_le_overflowBound

theorem rne64_of_overflow {q : Rat} (h : 2 ^ 1024 - 2 ^ 970 ≤ |q|) :
    rne64 q = if q < 0 then 0xFFF0000000000000 else 0x7FF0000000000000 :=
  rne64_of_ge (not_lt.1 (mt (lt_overflow_iff q).1 (not_lt.2 h)))

/-! ## SET_SCALE (R161, R171) -/

theorem finiteNonzero_iff (b : DWord) :
    finiteNonzero b = true ↔ b.extractLsb' 52 11 ≠ 0x7FF ∧ b.extractLsb' 0 63 ≠ 0 := by
  have hexp : expField b = 0x7FF ↔ b.extractLsb' 52 11 = 0x7FF := BitVec.toNat_inj (y := 0x7FF)
  simp only [finiteNonzero, finite, Bool.and_eq_true, decide_eq_true_eq, ne_eq, hexp]

/-- SET_SCALE at its CMD write while idle (R171). -/
theorem exec_setScale_idle {s : State} (hs : s.phase = .idle) : exec .setScale s = .next (
    if finiteNonzero s.scaleStg then completedAtOnce { s with scale := s.scaleStg } .none
    else completedAtOnce s .invalidArg) := by
  rw [exec, execSetScale, onCommand_idle hs]
  rfl

/-! ## TARE (R170) -/

/-- The last edge of TARE (R170): the OFFSET it writes has 32 bits to spare. -/
theorem quietCycle.step_tare {s : State} (hq : quietCycle s) (h : s.Inv) (hends : transactionEnds s)
    (ho : s.op = .tare) (hn : s.nconv.toNat + 1 = s.times.toNat) :
    ∃ o : Word, o.toInt = -rndDiv (s.acc.toInt + s.shreg.toInt) s.times.toNat ∧
      step s = .next (cycleEnd s
        { conversionBooked s with offset := o, phase := .idle, done := true, err := .none } true) := by
  have hc := hends.conv h
  refine ⟨_, ?_, hq.step_last hends hn (finish_tare ho hc.times_ne_zero)⟩
  have hacc := hc.acc_range
  rw [convBookkeeping_eq_conversionBooked, acc_conversionBooked hc] at hacc
  have hm := rndDiv_range (x := s.acc.toInt + s.shreg.toInt) (lo := -2 ^ 23) (hi := 2 ^ 23 - 1) (n := s.times.toNat)
    (by omega) (by omega) (by omega)
  have htimes : (conversionBooked s).times = s.times := rfl
  rw [acc_conversionBooked hc, htimes, BitVec.toInt_ofInt_eq_self (by decide) (by omega) (by omega)]

/-! ## Commands under the OFFSET of a TARE (R140 to R143, R170) -/

/-- Samples of mean c under an OFFSET of -c leave every result 0, and a TARE of them the same OFFSET. -/
theorem finish_of_tared {s u : State} {c : Int} (hu : finish s = .next u) (ht : s.times ≠ 0)
    (hone : s.op = .readRaw ∨ s.op = .read → s.times = 1) (hsum : s.acc.toInt = (s.times.toNat : Int) * c)
    (hoff : s.offset.toInt = -c) :
    u.err = .none ∧ (s.op = .readRawAvg ∨ s.op = .read ∨ s.op = .readAvg → u.result = 0) ∧
      (s.op = .readRaw → u.resultInt = 0) ∧ (s.op = .tare → u.offset = s.offset) := by
  have hpos : 0 < s.times.toNat := Nat.pos_of_ne_zero fun h0 => ht (BitVec.eq_of_toNat_eq h0)
  have hsingle : s.times = 1 → s.acc.toInt + s.offset.toInt = 0 := by
    intro h1
    rw [hsum, hoff, h1]
    simp
  have hmean : s.meanWord = 0 := by
    have hpos' : (s.times.toNat : Rat) ≠ 0 := by exact_mod_cast hpos.ne'
    rw [State.meanWord, State.sum, State.offsetVal, hsum, hoff, Int.cast_mul, Int.cast_natCast,
      mul_div_cancel_left₀ _ hpos', Int.cast_neg, add_neg_cancel, rne64_zero]
  cases finish_cases hu with
  | readRaw ho h =>
    subst h
    refine ⟨rfl, by simp [ho], fun _ => ?_, by simp [ho]⟩
    simp [hsingle (hone (.inl ho))]
  | readRawAvg ho _ h =>
    subst h
    exact ⟨rfl, fun _ => hmean, by simp [ho], by simp [ho]⟩
  | read ho _ h =>
    subst h
    have hzero : rne64 ((s.sum + s.offsetVal) / val s.scale) = 0 := by
      rw [State.sum, State.offsetVal, ← Int.cast_add, hsingle (hone (.inr ho)), Int.cast_zero, zero_div, rne64_zero]
    exact ⟨rfl, fun _ => hzero, by simp [ho], by simp [ho]⟩
  | readAvg ho _ _ h =>
    subst h
    have hzero : rne64 (val s.meanWord / val s.scale) = 0 := by rw [hmean, val_zero, zero_div, rne64_zero]
    exact ⟨rfl, fun _ => hzero, by simp [ho], by simp [ho]⟩
  | tare ho _ h =>
    subst h
    refine ⟨rfl, by simp [ho], by simp [ho], fun _ => ?_⟩
    simp [hsum, mul_comm _ c, rndDiv_mul_self c hpos, ← hoff]

/-! ## The obligations -/

/-- Settles O38: `rndDiv s n` is within 1/2 of s / n, and even at exactly 1/2. -/
theorem roundedDivisionIsNearestTiesToEven : Obligations.RoundedDivisionIsNearestTiesToEven := by
  intro s n hn
  refine ⟨rndDiv_nearest s hn, fun m hne h => rndDiv_even_of_equidistant s hn hne h, rndDiv_neg s hn, fun hlo hhi => ?_⟩
  have hpos : (0 : Rat) < n := by exact_mod_cast hn
  rw [le_div_iff₀ hpos] at hlo
  rw [div_le_iff₀ hpos] at hhi
  exact rndDiv_range hn (by exact_mod_cast hlo) (by exact_mod_cast hhi)

/-- Settles O11: the two cases are the two values of `finiteNonzero`. -/
theorem setScaleCopiesFiniteNonzeroStaging : Obligations.SetScaleCopiesFiniteNonzeroStaging := by
  intro s hs
  rw [exec_setScale_idle hs]
  constructor
  · intro h
    rw [if_pos ((finiteNonzero_iff _).2 h)]
  · intro h
    rw [if_neg]
    rw [finiteNonzero_iff]
    tauto

/-- Settles O34: the OFFSET of `quietCycle.step_tare`, and the distance of `rndDiv` from the mean. -/
theorem tareWritesNegatedRoundedMean : Obligations.TareWritesNegatedRoundedMean := by
  intro s h hq hends ho hn
  have hcount : 1 ≤ s.times.toNat := by omega
  obtain ⟨o, hoff, hst⟩ := hq.step_tare h hends ho hn
  exact ⟨o, _, hoff, abs_rndDiv_sub_le _ hcount, rndDiv_even_of_tie _ hcount, hst⟩

/-- Settles O39: the significand is `rndDiv`'s, hence nearest among the multiples of its last bit's weight, and every other element of
F is below the least significand of that scale. -/
theorem roundingToBinary64IsNearestTiesToEven : Obligations.RoundingToBinary64IsNearestTiesToEven := by
  intro q
  refine ⟨fun h => h ▸ rne64_zero, fun h => ?_, fun h => ?_, fun h => ?_⟩
  · have hpos := overflowBound_pos.trans_le h
    rw [rne64_of_overflow (h.trans (le_abs_self q)), if_neg hpos.not_gt]
  · have hneg := h.trans_lt (neg_lt_zero.2 overflowBound_pos)
    rw [rne64_of_overflow ((le_neg.2 h).trans (neg_le_abs q)), if_pos hneg]
  · have hfin := (lt_overflow_iff q).2 h
    exact ⟨finite_rne64 hfin, fun m e hm hlo hhi => rne64_nearestEven hfin _ ⟨m, e, hm, hlo, hhi, rfl⟩,
      getLsbD_sign_rne64 hfin⟩

/-- Settles O41: the OFFSET of `quietCycle.step_tare` is -c, as `rndDiv` is exact there, and `finish_of_tared` does the rest. -/
theorem tareUnderConstantSamplesZeroesTheMean : Obligations.TareUnderConstantSamplesZeroesTheMean := by
  refine ⟨fun s c h hq hends ho hn hsum => ?_, fun c n hn => ?_⟩
  · obtain ⟨o, hoff, hst⟩ := hq.step_tare h hends ho hn
    rw [hsum, mul_comm, rndDiv_mul_self c (by omega)] at hoff
    refine ⟨_, hst, hoff, fun u hu hqu hendsu hoffu hnu hsumu => ?_⟩
    have hc := hendsu.conv hu
    obtain ⟨v, hv⟩ := finish_total (s := conversionBooked u) hc.conv_op hc.times_ne_zero hu.scale_divisor
    obtain ⟨herr, hresult, hint, htare⟩ := finish_of_tared hv hc.times_ne_zero hc.conv_single
      ((acc_conversionBooked hc).trans hsumu) ((congrArg BitVec.toInt hoffu).trans hoff)
    exact ⟨_, hqu.step_last hendsu hnu hv, (finish_phase hv :), herr, hresult, hint, fun hop => (htare hop).trans hoffu⟩
  · have hn0 : (n : Rat) ≠ 0 := by exact_mod_cast (show n ≠ 0 by omega)
    have hexact : rndDiv (n * c) n = c := by rw [mul_comm, rndDiv_mul_self c hn]
    refine ⟨hexact, ?_⟩
    rw [hexact, Int.cast_mul, Int.cast_natCast, mul_div_cancel_left₀ _ hn0, Int.cast_neg, add_neg_cancel, rne64_zero]

end Sys2Proof.Machine
end

section
/-! # The control family: NOP, CONFIGURE, the power commands and ABORT, and the gates of the conversion commands (43_control.md)

The facts come first, in the order of the definitions they speak of; the obligations are settled from them at the end. -/

namespace Sys2Proof.Machine

/-! ## Commands that complete at their accepting edge (R180, R181, R203) -/

/-- A completion after REJ and ABT are cleared is the statements' `completedAtOnce` (R200, R203). -/
theorem complete_clearRejAbt (s : State) (e : ErrCode) : s.clearRejAbt.complete e = completedAtOnce s e := rfl

theorem exec_nop_idle {s : State} (hs : s.phase = .idle) : exec .nop s = .next (completedAtOnce s .none) := by
  rw [exec, execNop, onCommand_idle hs, complete_clearRejAbt]

/-- NOP's code is 0 (R81). -/
theorem code_eq_zero_iff {op : Opcode} : op.code.toNat = 0 ↔ op = .nop := by cases op <;> decide

/-- A word with OP = 0 and another bit set is no command: NOP's row has no operand (R84, R85). -/
theorem decode_error_of_specOp_zero {w : Word} (hop : specOp w = 0) (hw : w ≠ 0) : ∃ e, decode w = .error e := by
  cases hd : decode w with
  | error e => exact ⟨e, rfl⟩
  | ok i =>
    obtain ⟨hm, ho, -⟩ := decode_ok_iff.1 hd
    have hnop : i.opcode = .nop := by rwa [specOp_eq_code, ho, code_eq_zero_iff] at hop
    rw [hnop, show Opcode.nop.mask = 0xFFFFFFFF from rfl, word_and_full] at hm
    exact absurd hm hw

/-- A word that is no command, written to CMD while idle (R85, R200). -/
theorem busWrite_cmd_of_decode_error {s : State} {w : Word} {e : DecodeError} (hs : s.phase = .idle)
    (hd : decode w = .error e) : busWrite 0x00 w s = .next (completedAtOnce s .illegal) := by
  simp only [busWrite, regAt_cmd_iff.2 (show (0x00 : BitVec 8).toNat < 4 by decide), writeCmd, hd,
    illegalWord_completedAtOnce hs]

/-- CONFIGURE while idle with the code of a gain setting (R181). -/
theorem exec_configure_of_gain {s : State} {g : Nat} {k : Gain} (hs : s.phase = .idle) (hg : gainOfCode g = some k)
    (r : ReadyMode) (p : Bool) :
    exec (.configure g r p) s = .next (completedAtOnce { s with gain := k, rmode := r, pwrap := p } .none) := by
  simp only [exec, execConfigure, onCommand_idle hs, hg]
  rfl

/-- CONFIGURE while idle with the code of no gain setting (R82, R181). -/
theorem exec_configure_of_no_gain {s : State} {g : Nat} (hs : s.phase = .idle) (hg : gainOfCode g = none)
    (r : ReadyMode) (p : Bool) : exec (.configure g r p) s = .next (completedAtOnce s .config) := by
  simp only [exec, execConfigure, onCommand_idle hs, hg, complete_clearRejAbt]

/-! ## The gates of the conversion commands (R83, R184, R205) -/

theorem acceptConversion_powered_down {s : State} (hpwr : s.pwr = false) (hwrap : s.pwrap = false) (op : Opcode)
    (n : BitVec 16) : s.clearRejAbt.acceptConversion op n = completedAtOnce s .poweredDown := by
  rw [State.acceptConversion, if_pos ⟨hpwr, hwrap⟩, complete_clearRejAbt]

theorem acceptCounted_zero (s : State) (op : Opcode) :
    s.clearRejAbt.acceptCounted op (BitVec.ofNat 16 0) = completedAtOnce s .invalidArg := by
  rw [← complete_clearRejAbt]
  exact if_pos rfl

/-- A count that TIMES can hold passes the count check, which leaves the power gate (R205). -/
theorem acceptCounted_of_legal (s : State) (op : Opcode) {n : Nat} (h1 : 1 ≤ n) (h2 : n ≤ 65535) :
    s.acceptCounted op (BitVec.ofNat 16 n) = s.acceptConversion op (BitVec.ofNat 16 n) := by
  rw [State.acceptCounted, if_neg]
  rw [← BitVec.toNat_inj, BitVec.toNat_ofNat, Nat.mod_eq_of_lt (by omega)]
  exact Nat.one_le_iff_ne_zero.1 h1

/-! ## The power commands (R182, R183) -/

theorem exec_powerUp_idle {s : State} (hs : s.phase = .idle) :
    exec .powerUp s = .next (powerStarted s false .puSettle) := by
  rw [exec, execPowerUp, onCommand_idle hs]
  rfl

theorem exec_powerDown_idle {s : State} (hs : s.phase = .idle) :
    exec .powerDown s = .next (powerStarted s true .pdHold) := by
  rw [exec, execPowerDown, onCommand_idle hs]
  rfl

theorem State.Tracks.status {m t : State} (h : m.Tracks t) : t.phase = m.phase ∧ t.pwr = m.pwr ∧ t.nsel = m.nsel ∧
    t.done = m.done ∧ t.err = m.err ∧ t.sck = m.sck ∧ t.abt = m.abt := by
  have hsame := h.same
  simp only [State.besideHost, State.mk.injEq] at hsame
  simp only [hsame, and_self]

/-- The cycle in which a command is written to CMD while idle, with no reset listed ahead. -/
theorem State.NoReset.step_command {s t : State} {i : Instr} {off : BitVec 8} {w : Word} (hno : s.NoReset)
    (hs : s.phase = .idle) (hacc : s.currentInput.access = .write off w) (hoff : off.toNat < 4)
    (hd : decode w = .ok i) (ht : exec i s = .next t) : ∃ t', step s = .next t' ∧ t.Tracks t' := by
  have hu : hostAccess s.currentInput.access s = .next t := by rw [hacc, hostAccess_write_cmd hoff hd, ht]
  exact ⟨_, step_of_idle hno.currentInput hs hu, rfl, fun inp hinp => hno inp (List.mem_of_mem_tail hinp)⟩

/-- A power command from its write to its end: one cycle for the write, and the cycles of its timed phase (R121, R122). -/
theorem State.NoReset.run_powerCommand {s : State} {i : Instr} {w : Word} {l : Bool} {p : Phase} {d : Nat}
    (hno : s.NoReset) (hs : s.phase = .idle) (hcyc : s.cfg.cycPerUs < 2 ^ 32)
    (hacc : s.currentInput.access = .write 0x00 w) (hd : decode w = .ok i)
    (hi : exec i s = .next (powerStarted s l p)) (hp : timedPhase p = true)
    (hcycles : (powerStarted s l p).phaseCycles p = d) :
    ∃ (t : State) (n : BitVec 64), Host.Core.run core (1 + d) s = .next t ∧
      (((powerStarted s l p).counted n).phaseEnd p).Tracks t := by
  obtain ⟨t₁, hst, h₁⟩ := hno.step_command hs hacc (by decide) hd hi
  obtain ⟨t₂, n, hrun, h₂⟩ := h₁.run_timed rfl hp hcycles rfl hcyc
  exact ⟨t₂, n, run_add_of_next (run_succ_of_next (j := 0) rfl hst) hrun, h₂⟩

/-! ## The obligations -/

/-- Settles O9: a word with OP = 0 that is not NOP's decodes to no command. -/
theorem nopClearsStatusAndCompletes : Obligations.NopClearsStatusAndCompletes := by
  refine ⟨rfl, fun s hs => ⟨exec_nop_idle hs, fun w hop hw => ?_⟩⟩
  obtain ⟨e, hd⟩ := decode_error_of_specOp_zero hop hw
  exact busWrite_cmd_of_decode_error hs hd

/-- Settles O10: the codes 0, 1 and 2 name a gain setting, and 3 names none. -/
theorem configureSetsConfigOrErrConfig : Obligations.ConfigureSetsConfigOrErrConfig := fun _ r p hs =>
  ⟨exec_configure_of_gain hs rfl r p, exec_configure_of_gain hs rfl r p, exec_configure_of_gain hs rfl r p,
    exec_configure_of_no_gain hs rfl r p⟩

/-- Settles O13: a legal count meets the power gate, and a count of 0 is refused before it. -/
theorem conversionCommandsAreGated : Obligations.ConversionCommandsAreGated := by
  intro s n hs h1 h2
  constructor
  · intro hpwr hwrap
    simp only [exec, execReadRaw, execRead, execReadRawAvg, execReadAvg, execTare, onCommand_idle hs,
      acceptCounted_of_legal _ _ h1 h2, acceptConversion_powered_down hpwr hwrap, and_self]
  · simp only [exec, execReadRawAvg, execReadAvg, execTare, onCommand_idle hs, acceptCounted_zero, and_self]

/-- Settles O14. -/
theorem powerCommandsStartTheirSequence : Obligations.PowerCommandsStartTheirSequence :=
  fun _ hs => ⟨exec_powerUp_idle hs, exec_powerDown_idle hs⟩

/-- Settles O15: the two phases that do not discard an ABORT, and every other one. -/
theorem abortEndsOnlyAReadinessWait : Obligations.AbortEndsOnlyAReadinessWait := by
  intro s
  refine ⟨fun hp => ?_, fun hp => ?_, fun hwait hidle => exec_busy hidle fun ⟨_, hp⟩ => hwait hp⟩
  · simp only [exec, execAbort, hp]
    rfl
  · simp only [exec, execAbort, hp]

/-- Settles O55: the write enters PD_HOLD or PU_SETTLE, and the end of that phase completes the command. -/
theorem powerCommandsFromWriteToEnd : Obligations.PowerCommandsFromWriteToEnd := by
  intro s first rest hs hcyc hin hfirst hrest
  have hno : s.NoReset := by
    rw [State.NoReset, hin]
    exact List.forall_mem_cons.2 ⟨hfirst, hrest⟩
  obtain rfl : s.currentInput = first := by rw [State.currentInput, hin]
  constructor
  · intro hacc
    obtain ⟨t, n, hrun, ht⟩ := hno.run_powerCommand hs hcyc hacc rfl (exec_powerDown_idle hs) rfl rfl
    exact ⟨t, hrun, ht.status⟩
  · intro hacc
    obtain ⟨t, n, hrun, ht⟩ := hno.run_powerCommand hs hcyc hacc rfl (exec_powerUp_idle hs) rfl rfl
    exact ⟨t, hrun, ht.status⟩

end Sys2Proof.Machine
end

section
/-! # The exceptions family: acceptance and its checks, discarded writes, and the edges at which results, status and power change
(60_exceptions.md)

The facts come first, in the order of the definitions they speak of; the obligations are settled from them at the end. -/

namespace Sys2Proof.Machine

/-! ## Legal and illegal words (R85) -/

theorem specOp_of_decode {w : Word} {i : Instr} (hd : decode w = .ok i) : specOp w = i.opcode.code.toNat := by
  obtain ⟨-, hop, -⟩ := decode_ok_iff.1 hd
  rw [specOp_eq_code, hop]

/-- A word that decodes to no command is illegal. -/
theorem specIllegal_of_decode_error {w : Word} {e : DecodeError} (hd : decode w = .error e) : specIllegal w = true := by
  have hstray : ¬w &&& (opField w).mask = (opField w).pattern := by
    intro hm
    rw [decode, if_pos hm] at hd
    cases hd
  rw [specIllegal, specOp_eq_code, specMask_code, ofNat_code, decide_eq_true hstray, Bool.or_true]

/-- A word that decodes to a command is illegal only where its opcode is a reserved one. -/
theorem specIllegal_of_decode_ok {w : Word} {i : Instr} (hd : decode w = .ok i) :
    specIllegal w = decide (0xB ≤ i.opcode.code.toNat) := by
  obtain ⟨hm, -⟩ := decode_ok_iff.1 hd
  rw [specIllegal, specOp_of_decode hd, specMask_code, ofNat_code, decide_eq_false (not_not.2 hm), Bool.or_false]

theorem eq_abort_word_iff {w : Word} {i : Instr} (hd : decode w = .ok i) : w = 0x0000000A ↔ i = .abort := by
  rw [← decode_abort_iff, hd, Except.ok.injEq]

/-! ## The acceptance checks (R200) -/

/-- A write at offset 0 is a write to CMD (R22). -/
theorem busWrite_zero (w : Word) (s : State) : busWrite 0x00 w s = writeCmd w s := rfl

theorem writeCmd_of_decode_ok {w : Word} {i : Instr} (hd : decode w = .ok i) (s : State) : writeCmd w s = exec i s := by
  rw [writeCmd, hd]

/-- The power gate and what follows it (R145, R184). -/
theorem acceptConversion_gated (s : State) (op : Opcode) (n : BitVec 16) :
    s.clearRejAbt.acceptConversion op n =
      if s.pwr = false ∧ s.pwrap = false then completedAtOnce s .poweredDown else conversionStarted s op n := by
  split
  case isTrue h => exact acceptConversion_powered_down h.1 h.2 op n
  case isFalse h =>
    refine acceptConversion_clearRejAbt ?_ op n
    rwa [not_and_or, Bool.not_eq_false, Bool.not_eq_false] at h

/-- The count check, and the power gate after it (R83, R205). -/
theorem acceptCounted_gated (s : State) (op : Opcode) {n : Nat} (hn : n < 2 ^ 16) :
    s.clearRejAbt.acceptCounted op (BitVec.ofNat 16 n) =
      if n = 0 then completedAtOnce s .invalidArg
      else if s.pwr = false ∧ s.pwrap = false then completedAtOnce s .poweredDown
      else conversionStarted s op (BitVec.ofNat 16 n) := by
  split
  case isTrue h => rw [h, acceptCounted_zero]
  case isFalse h =>
    rw [acceptCounted_of_legal _ _ (Nat.one_le_iff_ne_zero.2 h) (by omega), acceptConversion_gated]

/-- CONFIGURE with every code its field holds (R82, R181). -/
theorem exec_configure_idle {s : State} {g : Nat} (hs : s.phase = .idle) (hg : g < 4) (r : ReadyMode) (p : Bool) :
    exec (.configure g r p) s = .next (
      if g = 3 then completedAtOnce s .config
      else completedAtOnce
        { s with gain := if g = 0 then .g128 else if g = 1 then .g64 else .g32, rmode := r, pwrap := p } .none) := by
  match g, hg with
  | 0, _ | 1, _ | 2, _ => exact exec_configure_of_gain hs rfl r p
  | 3, _ => exact exec_configure_of_no_gain hs rfl r p

theorem readyField_eq (w : Word) :
    readyField w = if w.toNat / 2 ^ 6 % 2 = 1 then .debounced else .polling := by
  simp only [readyField, BitVec.getLsbD, Nat.testBit_eq_decide_div_mod_eq, decide_eq_true_eq]

theorem wrapField_eq (w : Word) : wrapField w = decide (w.toNat / 2 ^ 7 % 2 = 1) := by
  rw [wrapField, BitVec.getLsbD, Nat.testBit_eq_decide_div_mod_eq]

theorem timesField_lt (w : Word) : timesField w < 2 ^ 16 := BitVec.isLt _

/-! ## The status flags while idle (R200, R204) -/

/-- The phase, DONE, ERR, REJ and ABT stay as they are. -/
structure State.SameStatus (s t : State) : Prop where
  phase : t.phase = s.phase
  done : t.done = s.done
  err : t.err = s.err
  rej : t.rej = s.rej
  abt : t.abt = s.abt

/-- While idle only a word other than ABORT, written to CMD, touches the status (R185, R200). -/
theorem hostAccess_idle_sameStatus_or_command {a : HostAccess} {s t : State} (hs : s.phase = .idle)
    (h : hostAccess a s = .next t) :
    s.SameStatus t ∨ ∃ off w, a = .write off w ∧ off.toNat < 4 ∧ w ≠ 0x0000000A := by
  rcases hostAccess_idle_cases hs h with ⟨_, _, _, _, _, rfl⟩ | ⟨off, w, rfl, hcmd, -⟩
  · left; constructor <;> rfl
  · have hoff := regAt_cmd_iff.1 hcmd
    by_cases hw : w = 0x0000000A
    · rw [hostAccess_write_cmd hoff ((decode_abort_iff w).2 hw), exec, execAbort, hs] at h
      cases h
      left; constructor <;> rfl
    · exact .inr ⟨off, w, rfl, hoff, hw⟩

/-! ## A busy cycle without an access (R101) -/

/-- The cycle of `s` with the listed input `inp`, but for the host's access. -/
theorem step_without_access (s : State) {inp : CycleInput} {rest : List CycleInput} (hr : inp.rst = false) :
    step { s with inputs := { inp with access := .idle } :: rest } =
      andThen (phaseStep s.phase inp s) fun u => .next
        { u.tickSinceLast (s.endsConversion inp) with inputs := rest, cycle := s.cycle + 1, rdata := none } := by
  change step (s.marked s.rej s.scaleStg ({ inp with access := .idle } :: rest)) = _
  rw [step_of_quiet_cons (inp := { inp with access := .idle }) (State.marked_inputs ..) hr rfl, State.marked_phase,
    phaseStep_lines, phaseStep_marked]
  cases hu : phaseStep s.phase inp s with
  | next u =>
    obtain ⟨hrej, hstg, -⟩ := phaseStep_keeps hu
    rw [← hrej, ← hstg]
    rfl
  | fault r => rfl
  | refused r => rfl

/-! ## Completions (R203, R204) -/

theorem finish_completes {s u : State} (h : finish s = .next u) : u.phase = .idle ∧ u.done = true ∧ u.err = .none := by
  rcases finish_cases h with ⟨_, rfl⟩ | ⟨_, _, rfl⟩ | ⟨_, _, rfl⟩ | ⟨_, _, _, rfl⟩ | ⟨_, _, rfl⟩ <;> exact ⟨rfl, rfl, rfl⟩

theorem beginConv_phase_ne_idle (s : State) : s.beginConv.phase ≠ .idle := by
  rw [State.beginConv_phase]
  split <;> decide

/-- The end of a conversion that is not the command's last begins the next one and writes no result; the last one completes without
error (R109, R144). -/
theorem endConv_cases {s u : State} (h : endConv s = .next u) :
    u = s.convBookkeeping.beginConv ∨ u.phase = .idle ∧ u.done = true ∧ u.err = .none := by
  unfold endConv at h
  split at h
  · exact .inl (Host.Outcome.next.inj h).symm
  · exact .inr (finish_completes h)

/-- A timed phase that ends its command completes it (R121, R122, R126). -/
theorem phaseEnd_completes {s : State} {p : Phase} (hp : timedPhase p = true) (h : (s.phaseEnd p).phase = .idle) :
    (s.phaseEnd p).done = true := by
  cases p
  case pdHold | puSettle | recoverLo => rfl
  case wrapHi | wrapLo | recoverHi => cases h
  case idle | waitRdy | clkHi | clkLo => cases hp

/-- A phase step that ends a command completes it (R203). -/
theorem phaseStep_completes {s u : State} (hs : s.phase ≠ .idle) (h : phaseStep s.phase s.currentInput s = .next u)
    (hu : u.phase = .idle) : u.done = true := by
  cases hp : s.phase <;> rw [hp] at h
  case idle => exact absurd hp hs
  case clkLo =>
    by_cases hends : transactionEnds s
    · rw [phaseStep_of_transactionEnds hends] at h
      rcases endConv_cases h with rfl | ⟨-, hdone, -⟩
      · exact absurd hu (beginConv_phase_ne_idle _)
      · exact hdone
    · rw [phaseStep_of_not_transactionEnds hp hends] at h
      cases h
      split_ifs at hu
      · cases hu
      · cases hp.symm.trans hu
  case waitRdy =>
    cases h
    unfold waitRdyStep at hu ⊢
    split_ifs at hu ⊢
    · rfl
    · cases hp.symm.trans hu
  case clkHi =>
    cases h
    unfold clkHiStep at hu
    split_ifs at hu
    · cases hu
    · cases hp.symm.trans hu
  all_goals
    rw [phaseStep_timed rfl] at h
    cases h
    unfold State.timedCycle at hu ⊢
    split_ifs at hu ⊢
    · exact phaseEnd_completes rfl hu
    · cases hp.symm.trans hu

/-- A command that changes SCALE while idle completes without error, with the staged value (R171). -/
theorem IdleOutcome.scale_completes {i : Instr} {s t : State} (h : IdleOutcome i s t) (hne : s.scale ≠ t.scale) :
    t.phase = .idle ∧ t.done = true ∧ t.err = .none ∧ t.scale = s.scaleStg := by
  cases h with
  | unchanged ht => simp [ht] at hne
  | atOnce g r p k e ht hc hk =>
    rw [ht] at hne ⊢
    obtain ⟨he, -, hstg, -⟩ := hk (Ne.symm hne)
    exact ⟨rfl, rfl, he, hstg⟩
  | power l p ht => simp [ht] at hne
  | conversion op n ht => simp [ht] at hne

theorem hostAccess_idle_scale_completes {a : HostAccess} {s t : State} (hs : s.phase = .idle)
    (h : hostAccess a s = .next t) (hne : s.scale ≠ t.scale) :
    t.phase = .idle ∧ t.done = true ∧ t.err = .none ∧ t.scale = s.scaleStg := by
  rcases hostAccess_idle_cases hs h with ⟨_, _, _, _, _, rfl⟩ | ⟨off, v, -, -, ⟨i, -, hi⟩ | rfl⟩
  · exact absurd rfl hne
  · exact (exec_idle_cases hs hi).scale_completes hne
  · exact absurd rfl hne

/-! ## PWR and NSEL (R42, R218) -/

theorem IdleOutcome.keeps_power {i : Instr} {s t : State} (h : IdleOutcome i s t) : t.pwr = s.pwr ∧ t.nsel = s.nsel := by
  cases h with
  | unchanged ht => rw [ht]; exact ⟨rfl, rfl⟩
  | atOnce g r p k e ht => rw [ht]; exact ⟨rfl, rfl⟩
  | power l p ht => rw [ht]; exact ⟨rfl, rfl⟩
  | conversion op n ht => rw [ht, beginConv_eq]; exact ⟨rfl, rfl⟩

theorem hostAccess_idle_keeps_power {a : HostAccess} {s t : State} (hs : s.phase = .idle) (h : hostAccess a s = .next t) :
    t.pwr = s.pwr ∧ t.nsel = s.nsel := by
  rcases hostAccess_idle_cases hs h with ⟨_, _, _, _, _, rfl⟩ | ⟨off, v, -, -, ⟨i, -, hi⟩ | rfl⟩
  · exact ⟨rfl, rfl⟩
  · exact (exec_idle_cases hs hi).keeps_power
  · exact ⟨rfl, rfl⟩

theorem endConv_power {s u : State} (h : endConv s = .next u) : u.pwr = s.pwr ∧ u.nsel = s.npulse := by
  unfold endConv at h
  split at h
  · cases h; simp
  · cases finish_cases h <;> simp [*]

/-- What a phase step does to PWR and NSEL: nothing; the end of a hold clears both; the end of a settle delay sets PWR; the end of a
transaction selects N (R111, R121 to R126). -/
inductive PowerOutcome (s u : State) : Prop
  | kept (hpwr : u.pwr = s.pwr) (hnsel : u.nsel = s.nsel)
  | down (hp : s.phase = .pdHold ∨ s.phase = .wrapHi ∨ s.phase = .recoverHi)
      (hd : duration s.cfg s.pdholdUs ≤ s.cnt.toNat + 1) (hpwr : u.pwr = false) (hnsel : u.nsel = 0)
  | up (hp : s.phase = .puSettle ∨ s.phase = .wrapLo ∨ s.phase = .recoverLo)
      (hd : duration s.cfg s.settleUs ≤ s.cnt.toNat + 1) (hpwr : u.pwr = true) (hnsel : u.nsel = s.nsel)
  | selected (hends : transactionEnds s) (hpwr : u.pwr = s.pwr) (hnsel : u.nsel = s.npulse)

/-- `PowerOutcome` sees PWR and NSEL alone of the state after the step. -/
theorem PowerOutcome.congr {s u t : State} (h : PowerOutcome s u) (hpwr : t.pwr = u.pwr) (hnsel : t.nsel = u.nsel) :
    PowerOutcome s t := by
  cases h with
  | kept hp hn => exact .kept (hpwr.trans hp) (hnsel.trans hn)
  | down hphase hd hp hn => exact .down hphase hd (hpwr.trans hp) (hnsel.trans hn)
  | up hphase hd hp hn => exact .up hphase hd (hpwr.trans hp) (hnsel.trans hn)
  | selected hends hp hn => exact .selected hends (hpwr.trans hp) (hnsel.trans hn)

theorem phaseStep_power {s u : State} (h : phaseStep s.phase s.currentInput s = .next u) : PowerOutcome s u := by
  cases hp : s.phase <;> rw [hp] at h
  case idle => cases h; exact .kept rfl rfl
  case clkLo =>
    by_cases hends : transactionEnds s
    · rw [phaseStep_of_transactionEnds hends] at h
      obtain ⟨hpwr, hnsel⟩ := endConv_power h
      exact .selected hends hpwr hnsel
    · rw [phaseStep_of_not_transactionEnds hp hends] at h
      cases h
      split_ifs <;> exact .kept rfl rfl
  case waitRdy => cases h; unfold waitRdyStep; split_ifs <;> exact .kept rfl rfl
  case clkHi =>
    cases h
    unfold clkHiStep
    split_ifs
    · exact .kept rfl rfl
    · exact .kept (State.sampleBit_pwr ..) (State.sampleBit_nsel ..)
    · exact .kept rfl rfl
  case pdHold | wrapHi | recoverHi =>
    rw [phaseStep_timed rfl] at h
    cases h
    unfold State.timedCycle
    split
    · exact .down (by simp [hp]) ‹_› rfl rfl
    · exact .kept rfl rfl
  case puSettle | wrapLo | recoverLo =>
    rw [phaseStep_timed rfl] at h
    cases h
    unfold State.timedCycle
    split
    · exact .up (by simp [hp]) ‹_› rfl rfl
    · exact .kept rfl rfl

/-! ## The obligations -/

/-- Settles O7: a word decodes to no command and is illegal, or its opcode picks the check and the acceptance action. -/
theorem acceptanceChecksInOrder : Obligations.AcceptanceChecksInOrder := by
  intro s w hs
  cases hd : decode w with
  | error e =>
    have hne : w ≠ 0x0000000A := by rintro rfl; cases hd
    rw [busWrite_cmd_of_decode_error hs hd, specIllegal_of_decode_error hd, if_neg hne, if_pos rfl]
  | ok i =>
    rw [busWrite_zero, writeCmd_of_decode_ok hd, specIllegal_of_decode_ok hd, specOp_of_decode hd, ← timesField_eq,
      ← gainField_eq, ← readyField_eq, ← wrapField_eq]
    simp only [eq_abort_word_iff hd]
    obtain ⟨-, hi⟩ := decode_eq_ok_iff.1 hd
    have hg : gainField w < 4 := BitVec.isLt _
    rw [← hi, commandOf_opcode]
    cases i.opcode
    case configure => rw [commandOf, exec_configure_idle hs hg]; simp [Opcode.code]
    case nop => rw [commandOf, exec_nop_idle hs]; simp [Opcode.code]
    case powerUp => rw [commandOf, exec_powerUp_idle hs]; simp [Opcode.code]
    case powerDown => rw [commandOf, exec_powerDown_idle hs]; simp [Opcode.code]
    case setScale => rw [commandOf, exec_setScale_idle hs]; cases finiteNonzero s.scaleStg <;> simp [Opcode.code]
    case abort => simp [commandOf, exec, execAbort, hs]
    case readRaw | read =>
      simp [commandOf, exec, execReadRaw, execRead, onCommand_idle hs, acceptConversion_gated, Opcode.code]
    case readRawAvg | readAvg | tare =>
      simp [commandOf, exec, execReadRawAvg, execReadAvg, execTare, onCommand_idle hs,
        acceptCounted_gated _ _ (timesField_lt w), Opcode.code]
    case reservedB | reservedC | reservedD | reservedE | reservedF =>
      simp [commandOf, exec, execReservedB, execReservedC, execReservedD, execReservedE, execReservedF, Opcode.code,
        illegalWord_completedAtOnce hs]

/-- Settles O8: only a command written while idle clears REJ. -/
theorem busyWritesAreDiscarded : Obligations.BusyWritesAreDiscarded := by
  refine ⟨fun s w hs => ⟨fun hw => writeCmd_busy hs hw, ?timing⟩, fun s t hrej hr hst hclear => ?_⟩
  case timing =>
    simp only [List.forall_mem_cons, List.not_mem_nil, false_implies, implies_true, and_true]
    exact ⟨congrArg _ (if_neg hs), congrArg _ (if_neg hs), congrArg _ (if_neg hs), congrArg _ (if_neg hs)⟩
  cases step_cases hst with
  | reset hr' => simp [hr] at hr'
  | idle _ hp u hu ht =>
    rw [ht] at hclear
    rcases hostAccess_idle_sameStatus_or_command hp hu with hsame | hcmd
    · exact absurd (hclear.symm.trans (hsame.rej.trans hrej)) (by decide)
    · exact ⟨hp, hcmd⟩
  | abort _ _ ht => simp [ht, hrej] at hclear
  | busy _ _ r k u hr' _ ht => simp [ht, hr' hrej] at hclear

/-- Settles O27: both cycles run the same phase step, beside which the access changes REJ and SCALE_STG as it does alone. -/
theorem busyHostAccessDoesNotDisturb : Obligations.BusyHostAccessDoesNotDisturb := by
  intro s t inp rest hs hin ha ht
  have hcur : s.currentInput = inp := by simp only [State.currentInput, hin]
  cases hrst : inp.rst with
  | true =>
    have hst := resetEdgeGivesEveryFieldItsValue s (hcur ▸ hrst)
    rw [hin] at hst
    cases ht.symm.trans (resetEdgeGivesEveryFieldItsValue _ (by exact hrst))
    exact ⟨_, hst, rfl, fun _ => rfl, nofun⟩
  | false =>
    obtain ⟨r, k, hrej, hacc, hst⟩ := step_of_busy (hcur ▸ hrst) hs (hcur ▸ ha)
    rw [hcur] at hacc hst
    rw [step_without_access s hrst] at ht
    obtain ⟨u, hu, hut⟩ := andThen_next_iff.1 ht
    cases hut
    rw [hu] at hst
    refine ⟨_, hst, ?_, nofun, fun _ => ⟨fun v hv => ?_, hrej, ?_⟩⟩
    · simp only [State.advance, hin]; rfl
    · cases hacc.symm.trans hv
      exact ⟨rfl, rfl⟩
    · rw [State.advance_rdata, hrst, State.readData]
      cases inp.access <;> rfl

/-- Settles O45: a phase step that ends a command completes it, the end of a conversion writes the result registers, and SET_SCALE's
acceptance writes SCALE. -/
theorem resultsChangeOnlyAtSuccessfulCompletion : Obligations.ResultsChangeOnlyAtSuccessfulCompletion := by
  intro s t hr hst
  cases step_cases hst with
  | reset hr' => simp [hr] at hr'
  | idle _ hp u hu ht =>
    obtain ⟨ho, hi, hres, -⟩ := hostAccess_idle_sameResults hp hu
    have hscale := hostAccess_idle_scale_completes hp hu
    rw [ht]
    exact ⟨fun hne => absurd hp hne, by simp [ho, hi, hres], fun hne => ⟨hp, hscale hne⟩⟩
  | abort _ _ ht => simp [ht]
  | busy _ hp r k u _ hu ht =>
    have hdone := phaseStep_completes hp hu
    have hscale := (phaseStep_frame hu).scale
    rw [ht]
    refine ⟨fun _ => hdone, fun hne => ?_, fun hne => absurd hscale.symm hne⟩
    · rcases phaseStep_sameResults_or_endConv hu with ⟨ho, hi, hres, -⟩ | ⟨hends, hend⟩
      · simp [ho, hi, hres] at hne
      · refine ⟨((endsConversion_iff s).1 hends).1, ?_⟩
        rcases endConv_cases hend with rfl | hcompleted
        · simp at hne
        · exact hcompleted

/-- Settles O49: the host's access keeps PWR and NSEL, and a phase step changes them at the ends of `PowerOutcome`. -/
theorem powerAndSelectionChangeOnlyAtTheirEdges : Obligations.PowerAndSelectionChangeOnlyAtTheirEdges := by
  intro s t hr hst
  have hcases : PowerOutcome s t := by
    cases step_cases hst with
    | reset hr' => simp [hr] at hr'
    | idle _ hp u hu ht =>
      obtain ⟨hpwr, hnsel⟩ := hostAccess_idle_keeps_power hp hu
      rw [ht]
      exact .kept hpwr hnsel
    | abort _ _ ht => rw [ht]; exact .kept rfl rfl
    | busy _ _ r k u _ hu ht => exact (phaseStep_power hu).congr (by rw [ht]; rfl) (by rw [ht]; rfl)
  cases hcases with
  | kept hpwr hnsel => simp +contextual [hpwr, hnsel]
  | down hp hd hpwr hnsel => exact ⟨fun _ _ => ⟨hp, hd, hnsel⟩, by simp [hpwr], fun _ => .inr ⟨hp, hpwr, hnsel⟩⟩
  | up hp hd hpwr hnsel => exact ⟨by simp [hpwr], fun _ _ => ⟨hp, hd⟩, by simp [hnsel]⟩
  | selected hends hpwr hnsel =>
    exact ⟨by simp +contextual [hpwr], by simp +contextual [hpwr], fun _ => .inl ⟨hends, hnsel⟩⟩

/-- Settles O51. -/
theorem statusHoldsUntilTheNextCommand : Obligations.StatusHoldsUntilTheNextCommand := by
  intro s t hs hr hst hne
  cases step_cases hst with
  | reset hr' => simp [hr] at hr'
  | idle _ hp u hu ht =>
    rcases hostAccess_idle_sameStatus_or_command hp hu with ⟨hphase, hdone, herr, -, habt⟩ | hcmd
    · simp [ht, hdone, herr, habt, hphase, hs] at hne
    · exact hcmd
  | abort _ hp => cases hs.symm.trans hp
  | busy _ hp => exact absurd hs hp

end Sys2Proof.Machine
end

section
/-! # The liveness family: every command ends within its bound (70_reset_and_hazards.md)

`State.cyclesLeft` is the variant: every busy cycle lowers it. The facts come first, one for each way a phase goes on; the obligation is
settled from them at the end. -/

namespace Sys2Proof.Machine

/-! ## Runs with a variant -/

/-- What every cycle keeps while it lowers a variant, or else hands over to `Q`, is handed over to `Q` within the variant's value. -/
theorem run_reaches_of_variant {P Q : State → Prop} {v : State → Nat}
    (hstep : ∀ s, P s → ∃ t, step s = .next t ∧ v t < v s ∧ (Q t ∨ P t)) {s : State} (h : P s) :
    ∃ (k : Nat) (t : State), k ≤ v s ∧ Host.Core.run core k s = .next t ∧ Q t := by
  induction hn : v s using Nat.strong_induction_on generalizing s with
  | _ n ih =>
    subst hn
    obtain ⟨t, hst, hlt, hq | hp⟩ := hstep s h
    · exact ⟨1, t, by omega, run_succ_of_next (j := 0) rfl hst, hq⟩
    · obtain ⟨k, u, hk, hrun, hu⟩ := ih (v t) hlt hp rfl
      exact ⟨1 + k, u, by omega, run_add_of_next (run_succ_of_next (j := 0) rfl hst) hrun, hu⟩

/-! ## `cyclesLeft` in each phase (R243) -/

/-- The host's access and the end of a cycle change nothing that the bound is computed from. -/
theorem cyclesLeft_cycleEnd (s u : State) (r : Bool) (k : DWord) (l : List CycleInput) (inp : CycleInput) (b : Bool) :
    (s.advance inp ((u.marked r k l).tickSinceLast b)).cyclesLeft = u.cyclesLeft := rfl

theorem cyclesLeft_of_idle {s : State} (hp : s.phase = .idle) : s.cyclesLeft = 0 := by
  simp only [State.cyclesLeft, hp]

/-- What the bound counts after the current conversion: the whole conversions after it and one recovery (R243). -/
def State.cyclesAfterConversion (s : State) : Nat :=
  (s.times.toNat - s.nconv.toNat - 1) * s.conversionCycles + s.powerCycle

section
variable {s : State}

theorem cyclesLeft_wrapHi (hp : s.phase = .wrapHi) :
    s.cyclesLeft = s.powerCycle - s.cnt.toNat + duration s.cfg s.timeoutUs + s.clockCycles + s.cyclesAfterConversion := by
  simp only [State.cyclesLeft, State.cyclesAfterConversion, hp]

theorem cyclesLeft_wrapLo (hp : s.phase = .wrapLo) :
    s.cyclesLeft = duration s.cfg s.settleUs - s.cnt.toNat + duration s.cfg s.timeoutUs + s.clockCycles +
      s.cyclesAfterConversion := by
  simp only [State.cyclesLeft, State.cyclesAfterConversion, hp]

theorem cyclesLeft_waitRdy (hp : s.phase = .waitRdy) :
    s.cyclesLeft = duration s.cfg s.timeoutUs - s.wcnt.toNat + s.clockCycles + s.cyclesAfterConversion := by
  simp only [State.cyclesLeft, State.cyclesAfterConversion, hp]

theorem cyclesLeft_clkHi (hp : s.phase = .clkHi) :
    s.cyclesLeft = s.pulseCycles - s.cnt.toNat + (23 + s.npulse.toNat - s.bitI.toNat) * s.pulseCycles +
      s.cyclesAfterConversion := by
  simp only [State.cyclesLeft, State.cyclesAfterConversion, hp]

theorem cyclesLeft_clkLo (hp : s.phase = .clkLo) :
    s.cyclesLeft = s.cfg.tLow - s.cnt.toNat + (23 + s.npulse.toNat - s.bitI.toNat) * s.pulseCycles +
      s.cyclesAfterConversion := by
  simp only [State.cyclesLeft, State.cyclesAfterConversion, hp]

end

/-- A transaction starts with all its 24 + N pulses to come. -/
theorem cyclesLeft_clockingStarted (s : State) :
    s.clockingStarted.cyclesLeft = s.clockCycles + s.cyclesAfterConversion := by
  rw [cyclesLeft_clkHi (by rfl)]
  change s.pulseCycles + (23 + s.npulse.toNat) * s.pulseCycles + s.cyclesAfterConversion = _
  rw [State.clockCycles]
  ring

/-- The low half is what is left of a pulse after its high half (R105). -/
theorem cyclesLeft_lowHalf (s : State) (b : Bool) :
    State.cyclesLeft { s.sampleBit b with sck := false, phase := .clkLo, cnt := 0 } =
      s.cfg.tLow + (23 + s.npulse.toNat - s.bitI.toNat) * s.pulseCycles + s.cyclesAfterConversion := by
  rw [cyclesLeft_clkLo (by rfl)]
  unfold State.sampleBit
  split <;> rfl

/-- The next pulse is one of those that were to come. -/
theorem cyclesLeft_nextPulse {s : State} (h : s.bitI.toNat < 23 + s.npulse.toNat) :
    State.cyclesLeft { s with bitI := s.bitI + 1, sck := true, phase := .clkHi, cnt := 0 } =
      (23 + s.npulse.toNat - s.bitI.toNat) * s.pulseCycles + s.cyclesAfterConversion := by
  have hbit : (s.bitI + 1).toNat = s.bitI.toNat + 1 := by
    have := s.npulse.isLt
    exact BitVec.toNat_add_of_lt (by simp; omega)
  obtain ⟨n, hn⟩ : ∃ n, 23 + s.npulse.toNat - s.bitI.toNat = n + 1 := Nat.exists_eq_succ_of_ne_zero (by omega)
  rw [cyclesLeft_clkHi (by rfl)]
  change s.pulseCycles + (23 + s.npulse.toNat - (s.bitI + 1).toNat) * s.pulseCycles + s.cyclesAfterConversion = _
  rw [hbit, Nat.sub_add_eq, hn, Nat.add_sub_cancel]
  ring

theorem cyclesLeft_enterRecovery (s : State) : s.enterRecovery.cyclesLeft = s.powerCycle := rfl

/-- At the start of a conversion the bound is that of the conversions still to come, this one whole, and a recovery. -/
theorem cyclesLeft_beginConv {s : State} (h : s.nconv.toNat < s.times.toNat) :
    s.beginConv.cyclesLeft = (s.times.toNat - s.nconv.toNat) * s.conversionCycles + s.powerCycle := by
  have hfirst : (s.times.toNat - s.nconv.toNat) * s.conversionCycles =
      s.conversionCycles + (s.times.toNat - s.nconv.toNat - 1) * s.conversionCycles := by
    obtain ⟨n, hn⟩ := Nat.exists_eq_succ_of_ne_zero (Nat.sub_ne_zero_of_lt h)
    rw [hn, Nat.succ_mul, Nat.succ_sub_one, Nat.add_comm]
  rw [hfirst, Nat.add_assoc]
  change _ = s.prologueCycles + duration s.cfg s.timeoutUs + s.clockCycles + s.cyclesAfterConversion
  unfold State.beginConv State.prologueCycles
  split
  case isTrue => rw [cyclesLeft_wrapHi (by rfl)]; rfl
  case isFalse => rw [cyclesLeft_waitRdy (by rfl), Nat.zero_add]; rfl

/-! ## Every busy cycle lowers `cyclesLeft` -/

section
variable {s : State} (h : s.Inv)
include h

theorem State.Inv.wcnt_lt (hp : s.phase = .waitRdy) : s.wcnt.toNat < duration s.cfg s.timeoutUs := by
  simpa only [State.counterInRange, hp] using h.counter

theorem State.Inv.cnt_lt_tHigh (hp : s.phase = .clkHi) : s.cnt.toNat < s.cfg.tHigh := by
  simpa only [State.counterInRange, hp] using h.counter

theorem State.Inv.cnt_lt_tLow (hp : s.phase = .clkLo) : s.cnt.toNat < s.cfg.tLow := by
  simpa only [State.counterInRange, hp] using h.counter

/-- A phase that counts one more of its cycles has one cycle fewer left. -/
theorem cyclesLeft_counted_lt (hi : s.phase ≠ .idle) (hw : s.phase ≠ .waitRdy)
    (hcarry : (s.cnt + 1).toNat = s.cnt.toNat + 1) : (s.counted (s.cnt + 1)).cyclesLeft < s.cyclesLeft := by
  have hc := h.counter
  cases hp : s.phase
  case idle => exact absurd hp hi
  case waitRdy => exact absurd hp hw
  all_goals
    simp only [State.counterInRange, hp] at hc
    simp only [State.cyclesLeft, State.counted, State.powerCycle, State.pulseCycles, State.clockCycles,
      State.conversionCycles, State.prologueCycles, hp, hcarry]
    omega

/-- The last cycle of a timed phase leaves the bound of what follows it: nothing, a settle delay, or the wait (R121 to R126). -/
theorem cyclesLeft_phaseEnd_lt (ht : timedPhase s.phase = true) : (s.phaseEnd s.phase).cyclesLeft < s.cyclesLeft := by
  have hc := h.counter
  cases hp : s.phase <;> simp only [State.counterInRange, hp] at hc
  case idle | waitRdy | clkHi | clkLo => simp [hp, timedPhase] at ht
  case pdHold | puSettle | recoverLo =>
    rw [cyclesLeft_of_idle (by rfl)]
    simp only [State.cyclesLeft, hp]
    omega
  case recoverHi =>
    change duration s.cfg s.settleUs < _
    simp only [State.cyclesLeft, State.powerCycle, hp]
    omega
  case wrapHi =>
    change duration s.cfg s.settleUs + duration s.cfg s.timeoutUs + s.clockCycles + s.cyclesAfterConversion < _
    rw [cyclesLeft_wrapHi hp, State.powerCycle]
    omega
  case wrapLo =>
    change duration s.cfg s.timeoutUs + s.clockCycles + s.cyclesAfterConversion < _
    rw [cyclesLeft_wrapLo hp]
    omega

/-- A timed phase goes on for one cycle fewer, or ends. -/
theorem timedCycle_cyclesLeft_lt (hcyc : s.cfg.cycPerUs < 2 ^ 32) (ht : timedPhase s.phase = true) :
    (s.timedCycle s.phase).cyclesLeft < s.cyclesLeft := by
  unfold State.timedCycle
  split
  case isTrue => exact cyclesLeft_phaseEnd_lt h ht
  case isFalse hlt =>
    have hfit := phaseCycles_lt hcyc s.phase
    exact cyclesLeft_counted_lt h (by intro hp; simp [hp, timedPhase] at ht) (by intro hp; simp [hp, timedPhase] at ht)
      (toNat_succ_eq (by omega))

/-- A line fault leaves one recovery, which `cyclesLeft` counts beside the conversions (R113). -/
theorem cyclesLeft_enterRecovery_lt (hp : s.phase = .clkHi ∨ s.phase = .clkLo) :
    s.enterRecovery.cyclesLeft < s.cyclesLeft := by
  have hrec : s.powerCycle ≤ s.cyclesAfterConversion := Nat.le_add_left ..
  rw [cyclesLeft_enterRecovery]
  rcases hp with hp | hp
  · have hc := h.cnt_lt_tHigh hp
    rw [cyclesLeft_clkHi hp, State.pulseCycles]
    omega
  · have hc := h.cnt_lt_tLow hp
    rw [cyclesLeft_clkLo hp]
    omega

/-- A wait ends with a whole transaction, with a timeout, or goes on for one cycle fewer (R104). -/
theorem waitRdyStep_cyclesLeft_lt (hcyc : s.cfg.cycPerUs < 2 ^ 32) (hp : s.phase = .waitRdy) (inp : CycleInput) :
    (waitRdyStep inp s).cyclesLeft < s.cyclesLeft := by
  have hc := h.wcnt_lt hp
  have hfit := duration_lt hcyc s.timeoutUs
  rw [cyclesLeft_waitRdy hp]
  unfold waitRdyStep
  split_ifs
  · change s.clockingStarted.cyclesLeft < _
    rw [cyclesLeft_clockingStarted]
    omega
  · rw [cyclesLeft_of_idle (State.complete_phase ..)]
    omega
  · rw [cyclesLeft_waitRdy (by exact hp)]
    change duration s.cfg s.timeoutUs - (s.wcnt + 1).toNat + s.clockCycles + s.cyclesAfterConversion < _
    rw [toNat_succ_eq (by omega)]
    omega

/-- The high half of a pulse goes on, or hands over to the low half (R105). -/
theorem clkHiStep_cyclesLeft_lt (hcyc : s.cfg.cycPerUs < 2 ^ 32) (hp : s.phase = .clkHi) (inp : CycleInput) :
    (clkHiStep inp s).cyclesLeft < s.cyclesLeft := by
  have hc := h.cnt_lt_tHigh hp
  have hfit := tHigh_lt_of_cycPerUs_lt hcyc
  unfold clkHiStep
  split_ifs with hf hend
  · exact cyclesLeft_enterRecovery_lt h (.inl hp)
  · rw [cyclesLeft_clkHi hp, cyclesLeft_lowHalf, State.pulseCycles]
    omega
  · exact cyclesLeft_counted_lt h (by simp [hp]) (by simp [hp]) (toNat_succ_eq (by omega))

/-- The end of a transaction that is not the command's last begins the next conversion; the last one ends the command (R109). -/
theorem endConv_cyclesLeft_lt (hp : s.phase = .clkLo) {u : State} (hu : endConv s = .next u) :
    u.cyclesLeft < s.cyclesLeft := by
  have hc := h.cnt_lt_tLow hp
  rw [cyclesLeft_clkLo hp]
  by_cases hmore : s.nconv.toNat + 1 < s.times.toNat
  · rw [endConv_of_more hmore] at hu
    cases hu
    have hn : (s.nconv + 1).toNat = s.nconv.toNat + 1 := by
      have := s.times.isLt
      exact BitVec.toNat_add_of_lt (by simp; omega)
    rw [cyclesLeft_beginConv (hn.trans_lt hmore)]
    change (s.times.toNat - (s.nconv + 1).toNat) * s.conversionCycles + s.powerCycle < _
    rw [hn, State.cyclesAfterConversion, Nat.sub_sub]
    omega
  · rw [endConv, if_neg hmore] at hu
    rw [cyclesLeft_of_idle (finish_phase hu)]
    omega

/-- The low half of a pulse goes on, hands over to the next pulse, or ends the transaction (R107). -/
theorem clkLoStep_cyclesLeft_lt (hlow : s.cfg.tLow ≤ 2 ^ 64) (hp : s.phase = .clkLo) {u : State}
    (hu : phaseStep .clkLo s.currentInput s = .next u) : u.cyclesLeft < s.cyclesLeft := by
  by_cases hends : transactionEnds s
  · rw [phaseStep_of_transactionEnds hends] at hu
    exact endConv_cyclesLeft_lt h hp hu
  · have hc := h.cnt_lt_tLow hp
    rw [phaseStep_of_not_transactionEnds hp hends] at hu
    cases hu
    split_ifs with hf hend
    · exact cyclesLeft_enterRecovery_lt h (.inr hp)
    · rw [cyclesLeft_clkLo hp, cyclesLeft_nextPulse]
      · omega
      · by_contra hb
        exact hends ⟨hp, Bool.eq_false_iff.2 hf, hend, by omega⟩
    · exact cyclesLeft_counted_lt h (by simp [hp]) (by simp [hp]) (toNat_succ_eq (by omega))

/-- Every phase step of a command in progress lowers `cyclesLeft`. -/
theorem phaseStep_cyclesLeft_lt (hcyc : s.cfg.cycPerUs < 2 ^ 32) (hlow : s.cfg.tLow ≤ 2 ^ 64) (hi : s.phase ≠ .idle)
    {u : State} (hu : phaseStep s.phase s.currentInput s = .next u) : u.cyclesLeft < s.cyclesLeft := by
  cases hp : s.phase
  case idle => exact absurd hp hi
  case waitRdy => rw [hp] at hu; cases hu; exact waitRdyStep_cyclesLeft_lt h hcyc hp _
  case clkHi => rw [hp] at hu; cases hu; exact clkHiStep_cyclesLeft_lt h hcyc hp _
  case clkLo => rw [hp] at hu; exact clkLoStep_cyclesLeft_lt h hlow hp hu
  all_goals
    have ht : timedPhase s.phase = true := by rw [hp]; rfl
    rw [phaseStep_timed ht] at hu
    cases hu
    exact timedCycle_cyclesLeft_lt h hcyc ht

/-- Every cycle of a command in progress but one under reset lowers `cyclesLeft`, whatever the host does. -/
theorem step_cyclesLeft_lt (hcyc : s.cfg.cycPerUs < 2 ^ 32) (hlow : s.cfg.tLow ≤ 2 ^ 64) (hi : s.phase ≠ .idle)
    (hr : s.currentInput.rst = false) {t : State} (hst : step s = .next t) : t.cyclesLeft < s.cyclesLeft := by
  cases step_cases hst with
  | reset hr' => simp [hr] at hr'
  | idle _ hp => exact absurd hp hi
  | abort _ hp ht =>
    have hc := h.wcnt_lt hp
    rw [ht, cyclesLeft_waitRdy hp, cyclesLeft_of_idle (by rfl)]
    omega
  | busy _ _ r k u _ hu ht =>
    rw [ht, cyclesLeft_cycleEnd]
    exact phaseStep_cyclesLeft_lt h hcyc hlow hi hu

end

/-! ## The obligation -/

/-- A command in progress whose counters cannot overflow (R100), with no reset listed ahead. -/
structure State.InProgress (s : State) : Prop where
  inv : s.Inv
  busy : s.phase ≠ .idle
  cycPerUs_lt : s.cfg.cycPerUs < 2 ^ 32
  tLow_le : s.cfg.tLow ≤ 2 ^ 64
  noReset : s.NoReset

/-- A cycle of a command in progress lowers `cyclesLeft`, and completes the command or leaves it in progress. -/
theorem State.InProgress.step {s : State} (h : s.InProgress) :
    ∃ t, Machine.step s = .next t ∧ t.cyclesLeft < s.cyclesLeft ∧ ((t.phase = .idle ∧ t.done = true) ∨ t.InProgress) := by
  obtain ⟨hinv, hbusy, hcyc, hlow, hno⟩ := h
  have hr := hno.currentInput
  obtain ⟨t, hst⟩ := everyStepAnswersANextState s hinv
  refine ⟨t, hst, step_cyclesLeft_lt hinv hcyc hlow hbusy hr hst, ?_⟩
  obtain ⟨hdone, -⟩ := resultsChangeOnlyAtSuccessfulCompletion s t hr hst
  by_cases hp : t.phase = .idle
  · exact .inl ⟨hp, hdone hbusy hp⟩
  · obtain ⟨-, -, -, -, -, -, -, -, hcfg, -⟩ := configurationIsConstantWhileBusy s t hr hbusy hst
    exact .inr ⟨everyStepKeepsInvariant s t hinv hst, hp, hcfg ▸ hcyc, hcfg ▸ hlow,
      fun inp hinp => hno inp (List.mem_of_mem_tail (step_inputs hst ▸ hinp))⟩

/-- Settles O44: `cyclesLeft` is a variant of a command in progress, which every cycle lowers. -/
theorem everyCommandEndsWithinItsBound : Obligations.EveryCommandEndsWithinItsBound := fun _ hinv hbusy hcyc hlow hno =>
  run_reaches_of_variant (P := State.InProgress) (Q := fun t => t.phase = .idle ∧ t.done = true) (fun _ h => h.step)
    ⟨hinv, hbusy, hcyc, hlow, hno⟩

end Sys2Proof.Machine
end
